-- ==== Sys2Proof/Word.lean ====
section
/-! DEFINITION. The block's two data widths (spec/00_scope.md R10): `u8` and `u16`. Lengths, counts and ids are
`Nat`, which never wraps (R10, D24). -/

namespace Sys2Proof

/-- `u8` of R10: one byte on the wire. -/
abbrev Byte := BitVec 8

/-- `u16` of R10: a CRC register value. -/
abbrev U16 := BitVec 16

/-- `bytes` of R10: a finite, possibly empty sequence of u8. -/
abbrev Bytes := List Byte

end Sys2Proof
end

