-- ==== Sys2Proof/Config.lean ====
section
/-! DEFINITION. The parameters of spec/00_scope.md R8: the fixed ones as constants, the others as ONE configuration
record, and the record the hardware is built with, whose OPEN entries are opaque. -/

namespace Sys2Proof

/-- R8, R60: "marks frame start/end". -/
def FLAG : Byte := 0x7E#8

/-- R8, R60: "marks an escaped byte follows". -/
def ESCAPE : Byte := 0x7D#8

/-- R8, R60: after `ESCAPE`, a literal FLAG. -/
def ESC_FLAG : Byte := 0x5E#8

/-- R8, R60: after `ESCAPE`, a literal ESCAPE. -/
def ESC_ESCAPE : Byte := 0x5D#8

/-- R8: the seed of a fresh CRC computation. -/
def INIT_FCS : U16 := 0xFFFF#16

/-- R8: the residue of an intact frame. -/
def GOOD_FCS : U16 := 0xF0B8#16

/-- R8: bytes of the fixed header. -/
def HEADER_LEN : Nat := 4

/-- R8: bytes of the FCS. -/
def FCS_LEN : Nat := 2

/-- R8: width of a station id. -/
def ADDR_BITS : Nat := 6

/-- R8, R63: the reserved broadcast id. -/
def BROADCAST_ID : Nat := 63

/-- R8, R63: the sentinel address byte of the broadcast id. -/
def BROADCAST_BYTE : Byte := 0xFF#8

/-- The parameters of R8 that are not fixed by the source, as the one record R8 asks for. They are hardwired
(spec/10_state.md R23): no operation writes them. -/
structure Config where
  /-- `MAX_RAW_FRAME`: ceiling on header + payload + FCS (90 C1, R133). -/
  maxRawFrame : Nat
  /-- `BUF_CAP`: capacity of each accumulation buffer. -/
  bufCap : Nat
  /-- `CONTROL_CONST`: header byte 1 of every encoded frame. -/
  controlConst : Byte
  /-- `PROTOCOL_ID_CONST`: header byte 2 of every encoded frame. -/
  protocolIdConst : Byte
  /-- `OVERFLOW_DROPS_REST_OF_CHUNK` (R151, D8). -/
  overflowDropsRestOfChunk : Bool
  /-- `N_DECODERS`: the number of decoder instances (D23). -/
  nDecoders : Nat
deriving DecidableEq, Repr

/-- The constraints of R9. -/
def Config.wf (c : Config) : Bool := decide (1 ≤ c.bufCap) && decide (1 ≤ c.nDecoders)

/-- `CONTROL_CONST` of the hardware: OPEN in R8 (D4). Nothing is known of it. Log entry 1. -/
opaque openControlConst : Byte

/-- `PROTOCOL_ID_CONST` of the hardware: OPEN in R8 (D4). Nothing is known of it. Log entry 1. -/
opaque openProtocolIdConst : Byte

/-- `N_DECODERS - 1` of the hardware: N_DECODERS is OPEN in R8 and at least 1 by R9 (D23). Log entry 1. -/
opaque openExtraDecoders : Nat

/-- The record the hardware is built with: R8's values and defaults, its OPEN entries opaque. Log entry 1. -/
def Config.hardware : Config where
  maxRawFrame := 256
  bufCap := 8192
  controlConst := openControlConst
  protocolIdConst := openProtocolIdConst
  overflowDropsRestOfChunk := true
  nDecoders := openExtraDecoders + 1

/-- FREE VALUE. The u32 length field of a response that carries `n ≥ 2^32` bytes or frames: R74 gives the field 32 bits and no
rule says what it then holds. Log entry 6. -/
opaque freeLengthField : Nat → BitVec 32

end Sys2Proof
end

