-- ==== Sys2Proof/Syntax.lean ====
section
/-! DEFINITION. What the block can be told to do: one constructor of `Instr` for each row of spec/opcode_table.json
(nine operations of spec/30_encoding.md R70, twelve decoder byte rows of R68, eight stuffer and de-stuffer byte rows of
R69), and the encoded form `Fetch` in which each arrives. -/

namespace Sys2Proof

/-- `DecState` of spec/10_state.md R21: the state of a decoder instance, in the source's order. -/
inductive DecState where
  | idle
  | confirming
  | confirmed
  | payload
deriving DecidableEq, Repr

/-- The twelve input-byte classes of R68, in the order in which they are tried. -/
inductive RxRow where
  | ovf | esc | escd | idleF | idleO | cfmgF0 | cfmgF1 | cfmgO | cfmdF | cfmdO | payF | payO
deriving DecidableEq, Repr

/-- The de-stuffer's five input classes of R69. -/
inductive DsRow where
  | flag | esc | lone | tail | other
deriving DecidableEq, Repr

/-- The rows of spec/opcode_table.json. `d` is a decoder instance id; a row whose input byte the table fixes takes no
byte. -/
inductive Instr where
  /-- CRC_STEP, R103. -/
  | crcStep (seed : U16) (b : Byte)
  /-- FCS, R104. -/
  | fcs (seed : U16) (data : Bytes)
  /-- STUFF, R111. -/
  | stuff (data : Bytes)
  /-- DESTUFF, R113. -/
  | destuff (data : Bytes)
  /-- ENCODE, R130: `address_id` is a `nat`. -/
  | encode (addressId : Nat) (msgType : Byte) (payload : Bytes)
  /-- DEC_RESET, R230. -/
  | decReset (d : Nat)
  /-- FEED, R150. -/
  | feed (d : Nat) (chunk : Bytes)
  /-- VALIDATE, R180. -/
  | validate (frame : Bytes)
  /-- PARSE_HEADER, R190. -/
  | parseHeader (body : Bytes)
  /-- RX_OVF, R151: any byte, met by a full buffer. -/
  | rxOvf (d : Nat) (b : Byte)
  /-- RX_ESC, R153: the byte is ESCAPE. -/
  | rxEsc (d : Nat)
  /-- RX_ESCD, R154: a byte other than ESCAPE while an escape is pending. -/
  | rxEscd (d : Nat) (b : Byte)
  /-- RX_IDLE_F, R155: the byte is FLAG. -/
  | rxIdleF (d : Nat)
  /-- RX_IDLE_O, R155: neither FLAG nor ESCAPE. -/
  | rxIdleO (d : Nat) (b : Byte)
  /-- RX_CFMG_F0, R156: the byte is FLAG and the buffer is empty. -/
  | rxCfmgF0 (d : Nat)
  /-- RX_CFMG_F1, R156: the byte is FLAG and the buffer is not empty. -/
  | rxCfmgF1 (d : Nat)
  /-- RX_CFMG_O, R156: neither FLAG nor ESCAPE. -/
  | rxCfmgO (d : Nat) (b : Byte)
  /-- RX_CFMD_F, R157: the byte is FLAG. -/
  | rxCfmdF (d : Nat)
  /-- RX_CFMD_O, R157: neither FLAG nor ESCAPE. -/
  | rxCfmdO (d : Nat) (b : Byte)
  /-- RX_PAY_F, R158: the byte is FLAG. -/
  | rxPayF (d : Nat)
  /-- RX_PAY_O, R158: neither FLAG nor ESCAPE. -/
  | rxPayO (d : Nat) (b : Byte)
  /-- TX_FLAG, R111: the stuffer's input byte is FLAG. -/
  | txFlag
  /-- TX_ESC, R111: the stuffer's input byte is ESCAPE. -/
  | txEsc
  /-- TX_OTHER, R111: any other stuffer input byte. -/
  | txOther (b : Byte)
  /-- DS_FLAG, R114: the pair ESCAPE, ESC_FLAG. -/
  | dsFlag
  /-- DS_ESC, R114: the pair ESCAPE, ESC_ESCAPE. -/
  | dsEsc
  /-- DS_LONE, R115: ESCAPE, with `next` (neither ESC_FLAG nor ESC_ESCAPE) after it, which the row does not consume. -/
  | dsLone (next : Byte)
  /-- DS_TAIL, R115: ESCAPE as the last byte. -/
  | dsTail
  /-- DS_OTHER, R115: a byte other than ESCAPE. -/
  | dsOther (b : Byte)
deriving DecidableEq, Repr

/-- The encoded form of an `Instr`: a command record on the command interface (R73), or a byte on the input of one of the
three byte units, where "each input byte selects one transition, as an instruction word selects one operation"
(spec/30_encoding.md, Part 1). Log entry 5. -/
inductive Fetch where
  /-- A command record of R73. -/
  | record (bytes : Bytes)
  /-- The input byte `b` of decoder instance `d` (R68). -/
  | rxByte (d : Nat) (b : Byte)
  /-- An input byte of the stuffer (R69). -/
  | txByte (b : Byte)
  /-- The de-stuffer's current byte and the byte after it, if there is one (R69, R113). -/
  | dsByte (b : Byte) (next : Option Byte)
deriving DecidableEq, Repr

/-- Why the command decoder rejects a record (R75). -/
inductive DecodeError where
  /-- "A command code of `0x00` or `0x0A..0xFF` selects no operation." -/
  | unassignedCode (code : Byte)
  /-- "So does a record whose length disagrees with its length fields", the empty record among them. -/
  | illFormedRecord
deriving DecidableEq, Repr

/-- What the selection of a decoder row reads besides the byte: "Row selection reads only `len(buf)`, `esc`, `st` and `b`"
(R68). Of the length, the conditions use two comparisons. -/
structure RxContext where
  /-- `len(buf) ≥ BUF_CAP`. -/
  full : Bool
  /-- `len(buf) = 0`. -/
  empty : Bool
  /-- `esc`. -/
  esc : Bool
  /-- `st`. -/
  st : DecState
deriving DecidableEq, Repr

end Sys2Proof
end

