-- ==== Sys2Proof/WellFormed.lean ====
section
/-! DEFINITION. The instructions that have an encoding: operands that fit the fields of their record
(spec/30_encoding.md R73), and byte-row operands inside their byte class (R68, R69). -/

namespace Sys2Proof

/-- A `bytes` operand is carried behind a `u32` length (R73). -/
def fitsLength (data : Bytes) : Bool := decide (data.length < 2 ^ 32)

/-- An instance id and an address id are one byte of a record (R73). -/
def fitsByte (n : Nat) : Bool := decide (n < 256)

/-- Neither reserved byte that a row of R68 or R69 excludes. -/
def isOrdinary (b : Byte) : Bool := b != FLAG && b != ESCAPE

/-- The instruction's operands fit its encoding. -/
def Instr.wellFormed : Instr → Bool
  | .crcStep _ _ => true
  | .fcs _ data => fitsLength data
  | .stuff data => fitsLength data
  | .destuff data => fitsLength data
  | .encode addressId _ payload => fitsByte addressId && fitsLength payload
  | .decReset d => fitsByte d
  | .feed d chunk => fitsByte d && fitsLength chunk
  | .validate frame => fitsLength frame
  | .parseHeader body => fitsLength body
  | .rxOvf _ _ => true
  | .rxEsc _ => true
  | .rxEscd _ b => b != ESCAPE
  | .rxIdleF _ => true
  | .rxIdleO _ b => isOrdinary b
  | .rxCfmgF0 _ => true
  | .rxCfmgF1 _ => true
  | .rxCfmgO _ b => isOrdinary b
  | .rxCfmdF _ => true
  | .rxCfmdO _ b => isOrdinary b
  | .rxPayF _ => true
  | .rxPayO _ b => isOrdinary b
  | .txFlag => true
  | .txEsc => true
  | .txOther b => isOrdinary b
  | .dsFlag => true
  | .dsEsc => true
  | .dsLone next => next != ESC_FLAG && next != ESC_ESCAPE
  | .dsTail => true
  | .dsOther b => b != ESCAPE

/-- The nine operations of R70, which a command record encodes. -/
def Instr.isCommand : Instr → Bool
  | .crcStep _ _ | .fcs _ _ | .stuff _ | .destuff _ | .encode _ _ _ | .decReset _ | .feed _ _ | .validate _
  | .parseHeader _ => true
  | .rxOvf _ _ | .rxEsc _ | .rxEscd _ _ | .rxIdleF _ | .rxIdleO _ _ | .rxCfmgF0 _ | .rxCfmgF1 _ | .rxCfmgO _ _
  | .rxCfmdF _ | .rxCfmdO _ _ | .rxPayF _ | .rxPayO _ _ | .txFlag | .txEsc | .txOther _ | .dsFlag | .dsEsc
  | .dsLone _ | .dsTail | .dsOther _ => false

end Sys2Proof
end

