-- ==== Sys2Proof/Decode.lean ====
section
/-! DEFINITION. From encoded forms to instructions and back: the command records of spec/30_encoding.md R73, the decoder
rows of R68 and the stuffer and de-stuffer rows of R69. The decoder is total and rejects by name (R75). -/

namespace Sys2Proof

/-! ### Fields -/

/-- Bits 7:0 of a u16. -/
def lowByte (v : U16) : Byte := v.setWidth 8

/-- Bits 15:8 of a u16. -/
def highByte (v : U16) : Byte := (v >>> 8).setWidth 8

/-- A `u16` record field, low byte first (R73). -/
def u16Field (v : U16) : Bytes := [lowByte v, highByte v]

/-- The `u16` whose little-endian field is `[b0, b1]`. -/
def readU16 (b0 b1 : Byte) : U16 := b1 ++ b0

/-- A `u32` record field, low byte first (R73). -/
def u32Field (v : BitVec 32) : Bytes :=
  [v.setWidth 8, (v >>> 8).setWidth 8, (v >>> 16).setWidth 8, (v >>> 24).setWidth 8]

/-- The length whose little-endian `u32` field is `[b0, b1, b2, b3]`. -/
def readU32 (b0 b1 b2 b3 : Byte) : Nat :=
  b0.toNat + 2 ^ 8 * b1.toNat + 2 ^ 16 * b2.toNat + 2 ^ 24 * b3.toNat

/-- "A `bytes` operand is a `u32` length `n` followed by `n` bytes" (R73). -/
def bytesField (data : Bytes) : Bytes := u32Field (BitVec.ofNat 32 data.length) ++ data

/-- A `bytes` operand at the front of a record, and the rest of the record. -/
def readBytes : Bytes → Option (Bytes × Bytes)
  | b0 :: b1 :: b2 :: b3 :: r =>
    if readU32 b0 b1 b2 b3 ≤ r.length then
      some (r.take (readU32 b0 b1 b2 b3), r.drop (readU32 b0 b1 b2 b3))
    else none
  | _ => none

/-! ### Command records (R73) -/

/-- An operation whose remaining operand is a `bytes` field. -/
def decodeBytesOperand (r : Bytes) (mk : Bytes → Instr) : Except DecodeError (Instr × Bytes) :=
  match readBytes r with
  | some (data, rest) => .ok (mk data, rest)
  | none => .error .illFormedRecord

/-- The command at the front of a byte sequence, with the bytes after it: the rows of R73's table. -/
def decodeFront : Bytes → Except DecodeError (Instr × Bytes)
  | [] => .error .illFormedRecord
  | code :: r =>
    match code.toNat with
    | 0x01 =>
      match r with
      | s0 :: s1 :: b :: rest => .ok (.crcStep (readU16 s0 s1) b, rest)
      | _ => .error .illFormedRecord
    | 0x02 =>
      match r with
      | s0 :: s1 :: r' => decodeBytesOperand r' (.fcs (readU16 s0 s1))
      | _ => .error .illFormedRecord
    | 0x03 => decodeBytesOperand r .stuff
    | 0x04 => decodeBytesOperand r .destuff
    | 0x05 =>
      match r with
      | addressId :: msgType :: r' => decodeBytesOperand r' (.encode addressId.toNat msgType)
      | _ => .error .illFormedRecord
    | 0x06 =>
      match r with
      | d :: rest => .ok (.decReset d.toNat, rest)
      | _ => .error .illFormedRecord
    | 0x07 =>
      match r with
      | d :: r' => decodeBytesOperand r' (.feed d.toNat)
      | _ => .error .illFormedRecord
    | 0x08 => decodeBytesOperand r .validate
    | 0x09 => decodeBytesOperand r .parseHeader
    | _ => .error (.unassignedCode code)

/-- The command of a whole record: a record longer than its fields say is ill-formed too (R75). -/
def decodeRecord (record : Bytes) : Except DecodeError Instr :=
  match decodeFront record with
  | .ok (i, []) => .ok i
  | .ok (_, _ :: _) => .error .illFormedRecord
  | .error e => .error e

/-! ### Byte rows (R68, R69) -/

/-- The row of R68 for a byte that does not meet a full buffer: R153, then R154, then the state dispatch of R155 to R158. -/
def rxSelectByte (empty esc : Bool) (st : DecState) (b : Byte) : RxRow :=
  if b = ESCAPE then .esc
  else if esc then .escd
  else match st with
    | .idle => if b = FLAG then .idleF else .idleO
    | .confirming => if b = FLAG then (if empty then .cfmgF0 else .cfmgF1) else .cfmgO
    | .confirmed => if b = FLAG then .cfmdF else .cfmdO
    | .payload => if b = FLAG then .payF else .payO

/-- The row of R68 that byte `b` selects; the overflow row is tried first (R205). -/
def rxSelect (c : RxContext) (b : Byte) : RxRow :=
  if c.full then .ovf else rxSelectByte c.empty c.esc c.st b

/-- The instruction of a decoder row, for byte `b` of instance `d`. -/
def rxInstr (row : RxRow) (d : Nat) (b : Byte) : Instr :=
  match row with
  | .ovf => .rxOvf d b
  | .esc => .rxEsc d
  | .escd => .rxEscd d b
  | .idleF => .rxIdleF d
  | .idleO => .rxIdleO d b
  | .cfmgF0 => .rxCfmgF0 d
  | .cfmgF1 => .rxCfmgF1 d
  | .cfmgO => .rxCfmgO d b
  | .cfmdF => .rxCfmdF d
  | .cfmdO => .rxCfmdO d b
  | .payF => .rxPayF d
  | .payO => .rxPayO d b

/-- The stuffer row of R69 that byte `b` selects. -/
def txDecode (b : Byte) : Instr :=
  if b = FLAG then .txFlag else if b = ESCAPE then .txEsc else .txOther b

/-- The de-stuffer row of R69 for current byte `b` and the byte after it: the bound test comes before the look at that byte
(R113). -/
def dsSelect (b : Byte) (next : Option Byte) : DsRow :=
  if b = ESCAPE then
    match next with
    | none => .tail
    | some x => if x = ESC_FLAG then .flag else if x = ESC_ESCAPE then .esc else .lone
  else .other

/-- The instruction of a de-stuffer row. -/
def dsDecode (b : Byte) (next : Option Byte) : Instr :=
  match dsSelect b next with
  | .flag => .dsFlag
  | .esc => .dsEsc
  | .lone => .dsLone (next.getD 0)
  | .tail => .dsTail
  | .other => .dsOther b

/-! ### All encoded forms -/

/-- The instruction that arrives as `f`. The context is that of the decoder instance a `rxByte` names. -/
def decodeFetch (c : RxContext) : Fetch → Except DecodeError Instr
  | .record bytes => decodeRecord bytes
  | .rxByte d b => .ok (rxInstr (rxSelect c b) d b)
  | .txByte b => .ok (txDecode b)
  | .dsByte b next => .ok (dsDecode b next)

/-- The encoded form of an instruction. For DS_FLAG and DS_ESC it is the two bytes of the pair; DS_LONE shows the byte after
the escape without consuming it. DS_OTHER's look-ahead is not part of the row, so none is given. -/
def encode : Instr → Fetch
  | .crcStep seed b => .record (0x01#8 :: u16Field seed ++ [b])
  | .fcs seed data => .record (0x02#8 :: u16Field seed ++ bytesField data)
  | .stuff data => .record (0x03#8 :: bytesField data)
  | .destuff data => .record (0x04#8 :: bytesField data)
  | .encode addressId msgType payload => .record (0x05#8 :: BitVec.ofNat 8 addressId :: msgType :: bytesField payload)
  | .decReset d => .record [0x06#8, BitVec.ofNat 8 d]
  | .feed d chunk => .record (0x07#8 :: BitVec.ofNat 8 d :: bytesField chunk)
  | .validate frame => .record (0x08#8 :: bytesField frame)
  | .parseHeader body => .record (0x09#8 :: bytesField body)
  | .rxOvf d b => .rxByte d b
  | .rxEsc d => .rxByte d ESCAPE
  | .rxEscd d b => .rxByte d b
  | .rxIdleF d => .rxByte d FLAG
  | .rxIdleO d b => .rxByte d b
  | .rxCfmgF0 d => .rxByte d FLAG
  | .rxCfmgF1 d => .rxByte d FLAG
  | .rxCfmgO d b => .rxByte d b
  | .rxCfmdF d => .rxByte d FLAG
  | .rxCfmdO d b => .rxByte d b
  | .rxPayF d => .rxByte d FLAG
  | .rxPayO d b => .rxByte d b
  | .txFlag => .txByte FLAG
  | .txEsc => .txByte ESCAPE
  | .txOther b => .txByte b
  | .dsFlag => .dsByte ESCAPE (some ESC_FLAG)
  | .dsEsc => .dsByte ESCAPE (some ESC_ESCAPE)
  | .dsLone next => .dsByte ESCAPE (some next)
  | .dsTail => .dsByte ESCAPE none
  | .dsOther b => .dsByte b none

/-! ### Words of the opcode table -/

/-- The context of a decoder instance in its reset state (spec/10_state.md R30); its buffer is not full, since
`BUF_CAP ≥ 1` (R9). -/
def resetContext : RxContext where
  full := false
  empty := true
  esc := false
  st := .idle

/-- The `n` bytes of `w`, bits 7:0 first. -/
def wordBytes : Nat → Nat → Bytes
  | 0, _ => []
  | n + 1, w => BitVec.ofNat 8 w :: wordBytes n (w / 256)

/-- The record of the command whose leading bytes are `bytes` and whose further bytes are zero: cut where the command
ends. -/
def zeroPaddedRecord (bytes : Bytes) : Option Bytes :=
  let padded := bytes ++ List.replicate 8 0#8
  match decodeFront padded with
  | .ok (_, rest) => some (padded.take (padded.length - rest.length))
  | .error _ => none

/-- The encoded form a word of the opcode table stands for. A word whose first byte is an assigned command code is that
command's record. The table's byte rows hold only the words 0x7D and 0x7E (one byte) and 0x7D5E and 0x7D5D (a pair, its
first byte the high one: "pair [7D 5E] at position i"): the first two are read as an input byte of decoder instance 0, the
others as the de-stuffer's pair. Anything else is a record, which is refused. Log entry 7. -/
def tableFetch (nbits w : Nat) : Fetch :=
  let bytes := wordBytes ((nbits + 7) / 8) w
  match zeroPaddedRecord bytes with
  | some r => .record r
  | none =>
    match bytes with
    | [b] => if b = FLAG ∨ b = ESCAPE then .rxByte 0 b else .record bytes
    | [second, first] =>
      if first = ESCAPE ∧ (second = ESC_FLAG ∨ second = ESC_ESCAPE) then .dsByte first (some second) else .record bytes
    | _ => .record bytes

/-- The instruction of a word of the opcode table; a decoder byte is read as right after reset. Log entry 7. -/
def decodeTableWord (nbits w : Nat) : Option Instr :=
  match decodeFetch resetContext (tableFetch nbits w) with
  | .ok i => some i
  | .error _ => none

end Sys2Proof
end

