-- ==== Sys2Proof/Machine/State.lean ====
section
/-! DEFINITION. The machine's state as plain data: the decoder instances of spec/10_state.md R20, the parameter record of
R23, and the host's side of the interface (spec/00_scope.md R7): commands issued, FEEDs open, results returned. Also what
a result is, and why a step can stop. -/

namespace Sys2Proof.Machine

/-- The storage of one accumulation buffer `BUF_d` (spec/20_memory.md R40): the bytes at indices `0 .. cursor-1`, in order. An
index at or above the cursor holds no value, since no rule reads it (R30). Log entry 2. -/
abbrev Memory := Bytes

/-- The canonical form of a buffer: it holds at most `BUF_CAP` bytes (R20, R22 item 1). -/
def Memory.wf (cap : Nat) (m : Memory) : Bool := decide (m.length ≤ cap)

/-- `D[d]`, the parser state of one decoder instance (R20). -/
structure Decoder where
  /-- `st`. -/
  st : DecState
  /-- `buf`; its length is the write cursor. -/
  buf : Memory
  /-- `esc`, the escape-pending flag. -/
  esc : Bool
deriving DecidableEq, Repr

/-- `cursor`, "always `= len(D[d].buf)`" (R20). -/
def Decoder.cursor (dec : Decoder) : Nat := dec.buf.length

/-- The reset state of an instance (R30). -/
def Decoder.reset : Decoder where
  st := .idle
  buf := []
  esc := false

/-- The errors an operation returns (spec/60_exceptions.md R200), in R71's order. -/
inductive ErrorCode where
  | invalidAddress
  | frameTooLarge
  | badFcs
  | truncatedFrame
deriving DecidableEq, Repr

/-- The result of an operation or of a byte row, as it goes back to the host (spec/30_encoding.md R70, R74). -/
inductive Response where
  /-- CRC_STEP, FCS: a u16. -/
  | value (v : U16)
  /-- STUFF, and the successes of ENCODE and VALIDATE: bytes. -/
  | bytes (data : Bytes)
  /-- DESTUFF: the bytes and the `malformed` flag. -/
  | destuffed (data : Bytes) (malformed : Bool)
  /-- DEC_RESET: nothing. -/
  | done
  /-- FEED, and a decoder row: the frames emitted and the `overflow` flag. -/
  | frames (fs : List Bytes) (overflow : Bool)
  /-- PARSE_HEADER's success. -/
  | header (address control protocolId msgType : Byte) (payload : Bytes)
  /-- An error: "the operation ends at once; returns only its status code" (R201). -/
  | error (e : ErrorCode)
  /-- A stuffer or de-stuffer row alone (R69): the bytes it emits, the input bytes it consumes, and its mark on `malformed`. -/
  | unit (out : Bytes) (advance : Nat) (malformed : Bool)
deriving DecidableEq, Repr

/-- A FEED that has been issued on instance `d` and has not completed (R208), with the result it will return. -/
structure OpenFeed where
  d : Nat
  response : Response
deriving DecidableEq, Repr

/-- What the host does at the interface (R7, R208). Log entries 3, 4. -/
inductive Request where
  /-- Issue one operation or present one unit input byte; it completes before the next request. -/
  | issue (f : Fetch)
  /-- Issue FEED `(d, chunk)`, which has not completed when the next request is issued. -/
  | openFeed (d : Nat) (chunk : Bytes)
  /-- The open FEED on `d` completes and returns. -/
  | completeFeed (d : Nat)
deriving DecidableEq, Repr

/-- The whole state. -/
structure State where
  /-- The parameter record, hardwired for the run (R23): no step writes it. -/
  cfg : Config
  /-- `D[0], D[1], …` (R20): one entry for each instance. -/
  decoders : List Decoder
  /-- The FEEDs issued and not completed (R208). -/
  inFlight : List OpenFeed
  /-- What the host has asked for and the block has not yet taken, oldest first (R48: in the order issued). -/
  inbox : List Request
  /-- The results returned to the host, oldest first. -/
  outbox : List Response
deriving DecidableEq, Repr

/-- The two faults of spec/60_exceptions.md R206 to R208; each is a stuck state. -/
inductive Fault where
  /-- Raised by ENCODE when the assembled frame does not re-check to GOOD_FCS (R135, R206). Safe: the spec's own stop. -/
  | encoderSelfCheck
  /-- Raised by FEED, DEC_RESET and the decoder rows that name an instance with an open FEED (R208). Safe: the spec's own stop. -/
  | reentrantFeed (d : Nat)
deriving DecidableEq, Repr

/-- Why a request has no meaning (R75, R209): no response, and no change of state. -/
inductive Refusal where
  /-- Raised by `exec` alone, for an instruction that has no meaning yet. Safe. No arm uses it. -/
  | notModelled (mnemonic : String)
  /-- Raised by the fetch of a record whose command code selects no operation (R75). Safe. -/
  | unassignedCode (code : Byte)
  /-- Raised by the fetch of a record whose length disagrees with its length fields (R75). Safe. -/
  | illFormedRecord
  /-- Raised by FEED, DEC_RESET, the decoder rows and the open FEED for an id that names no instance (R75). Safe. -/
  | noSuchInstance (d : Nat)
  /-- Raised by a decoder row, when another row of R68 is the one that the instance's state and the byte select. Safe: a fetch
  never yields such a row. -/
  | rowNotSelected (row : RxRow)
  /-- Raised by the completion of a FEED on an instance that has none open: nothing is there to return. Safe. -/
  | noOpenFeed (d : Nat)
deriving DecidableEq, Repr

/-- The start of a run (spec/70_reset_and_hazards.md R231): every instance in its reset state, the hardware's parameter
record, nothing issued, open or returned. -/
def State.reset : State where
  cfg := Config.hardware
  decoders := List.replicate Config.hardware.nDecoders Decoder.reset
  inFlight := []
  inbox := []
  outbox := []

end Sys2Proof.Machine
end

