-- ==== Sys2Proof/Machine/Flags.lean ====
section
/-! DEFINITION. The flags: the conditions a decoder row reads (spec/30_encoding.md R68), the result flags `overflow` and
`malformed` (R72), the escape flag (spec/10_state.md R26), and the status codes (R71). -/

namespace Sys2Proof.Machine

/-- `len(buf) ≥ BUF_CAP`, the overflow test of R151. -/
def bufferFull (cfg : Config) (dec : Decoder) : Bool := decide (cfg.bufCap ≤ dec.cursor)

/-- What row selection reads of an instance (R68). -/
def rxContext (cfg : Config) (dec : Decoder) : RxContext where
  full := bufferFull cfg dec
  empty := dec.buf.isEmpty
  esc := dec.esc
  st := dec.st

/-- The row of R68 that byte `b` selects at this instance. -/
def rxRowOf (cfg : Config) (dec : Decoder) (b : Byte) : RxRow := rxSelect (rxContext cfg dec) b

/-- The mark a de-stuffer row leaves on `malformed`: "true exactly when row DS_TAIL of rule R69 applied" (R72). -/
def dsMalformed (row : DsRow) : Bool :=
  match row with
  | .tail => true
  | .flag => false
  | .esc => false
  | .lone => false
  | .other => false

/-- The status codes of errors (R71). -/
def ErrorCode.status (e : ErrorCode) : Byte :=
  match e with
  | .invalidAddress => 0x01#8
  | .frameTooLarge => 0x02#8
  | .badFcs => 0x03#8
  | .truncatedFrame => 0x04#8

/-- The status code of a FEED: BufferOverflow when `overflow = true`, else OK (R71). -/
def feedStatus (overflow : Bool) : Byte := if overflow then 0x05#8 else 0x00#8

end Sys2Proof.Machine
end

