-- ==== Sys2Proof/Machine/Ops.lean ====
section
/-! DEFINITION. The shared operations over State: the instance file, the accumulation buffers, and how an operation ends
(with a result, with an error, with a fault). There is no trap to take and none to return from (spec/60_exceptions.md
R211, R212): an error is a returned value (R201). -/

namespace Sys2Proof.Machine

open Host

/-- What every operation and step answers. -/
abbrev Answer := Outcome State Fault Refusal

/-! ### Buffers -/

/-- `MemRead(BUF_d, i, 1)` (spec/00_scope.md R12): byte `i` of a buffer, for `i < cursor`. -/
def memRead (m : Memory) (i : Nat) : Option Byte := m[i]?

/-- `MemWrite(BUF_d, cursor, 1, v)` with the cursor's advance: the only write to a buffer is this append (R12, R152). -/
def memAppend (m : Memory) (b : Byte) : Memory := m ++ [b]

/-- `store(d, b)` (spec/43_stream_decoder.md R152). -/
def store (dec : Decoder) (b : Byte) : Decoder := { dec with buf := memAppend dec.buf b }

/-! ### Instances -/

/-- `D[d] <- dec` (R12). -/
def State.setDecoder (s : State) (d : Nat) (dec : Decoder) : State := { s with decoders := s.decoders.set d dec }

/-- A FEED on `d` has been issued and has not completed (R208). -/
def State.isOpen (s : State) (d : Nat) : Bool := s.inFlight.any (fun o => decide (o.d = d))

/-- The frame of every operation that names an instance: an id `d ≥ N_DECODERS` is refused (R75), an instance with an open FEED
faults (R208), and otherwise `k` runs on `D[d]`. -/
def withDecoder (s : State) (d : Nat) (k : Decoder → Answer) : Answer :=
  match s.decoders[d]? with
  | none => .refused (.noSuchInstance d)
  | some dec => if s.isOpen d then .fault (.reentrantFeed d) else k dec

/-! ### How an operation ends -/

/-- The result `r` goes back to the host. -/
def State.respond (s : State) (r : Response) : State := { s with outbox := s.outbox ++ [r] }

/-- `raise E` (R12, R201): "ends at once; returns only its status code; leaves all state as it was before the operation". -/
def raiseError (s : State) (e : ErrorCode) : Answer := .next (s.respond (.error e))

/-- `Ok(r)`: the operation completes with result `r`. -/
def complete (s : State) (r : Response) : Answer := .next (s.respond r)

end Sys2Proof.Machine
end

