-- ==== Sys2Proof/Machine/Crc.lean ====
section
/-! DEFINITION. The CRC engine and its operations CRC_STEP and FCS (spec/40_crc.md). -/

namespace Sys2Proof.Machine

/-- `crc_step(seed, b)` (R102): `(seed >> 8) xor CRC_TABLE[(seed xor b) & 0xFF]`. -/
def crcStep (seed : U16) (b : Byte) : U16 := (seed >>> 8) ^^^ crcWord (lowByte (seed ^^^ b.setWidth 16))

/-- `fcs(seed, data)` (R102). -/
def fcs (seed : U16) (data : Bytes) : U16 := data.foldl crcStep seed

/-- The frame check (R106): this equality and nothing more (90 C6). -/
def frameCheck (r : Bytes) : Bool := fcs INIT_FCS r == GOOD_FCS

/-- CRC_STEP (R103). -/
def execCrcStep (seed : U16) (b : Byte) (s : State) : Answer := complete s (.value (crcStep seed b))

/-- FCS (R104). -/
def execFcs (seed : U16) (data : Bytes) (s : State) : Answer := complete s (.value (fcs seed data))

end Sys2Proof.Machine
end

