-- ==== Sys2Proof/Machine/Operands.lean ====
section
/-! DEFINITION. The forms of the frame codec's operands and results: the address byte, the header, the FCS bytes, the raw
frame (spec/30_encoding.md R61 to R64), and the validator's strip of the outer delimiters (spec/44_validator.md R181). -/

namespace Sys2Proof.Machine

/-- "`address_id` does not fit the 6-bit domain" (R131). -/
def addressOutOfDomain (addressId : Nat) : Bool := decide (2 ^ ADDR_BITS ≤ addressId)

/-- The address byte of an id in `0..63` (R63). -/
def addressByte (addressId : Nat) : Byte :=
  if addressId = BROADCAST_ID then BROADCAST_BYTE else (BitVec.ofNat 8 addressId <<< 2) ||| 0x01#8

/-- Header and payload (R132). -/
def frameBody (cfg : Config) (addressId : Nat) (msgType : Byte) (payload : Bytes) : Bytes :=
  [addressByte addressId, cfg.controlConst, cfg.protocolIdConst, msgType] ++ payload

/-- The two FCS bytes of a CRC value: its complement, low byte first (R64, 20 R42). -/
def fcsBytes (f : U16) : Bytes := [lowByte (~~~f), highByte (~~~f)]

/-- `m` with its FCS bytes appended (R134). -/
def withFcs (m : Bytes) : Bytes := m ++ fcsBytes (fcs INIT_FCS m)

/-- The raw frame (R61). -/
def rawFrame (cfg : Config) (addressId : Nat) (msgType : Byte) (payload : Bytes) : Bytes :=
  withFcs (frameBody cfg addressId msgType payload)

/-- `HEADER_LEN + L + FCS_LEN > MAX_RAW_FRAME` (R133). -/
def exceedsCeiling (cfg : Config) (payload : Bytes) : Bool :=
  decide (cfg.maxRawFrame < HEADER_LEN + payload.length + FCS_LEN)

/-- Removes "at most one leading byte, and only if it is `FLAG`" (R181). -/
def stripLeadingFlag (f : Bytes) : Bytes := if f.head? = some FLAG then f.drop 1 else f

/-- Removes "at most one trailing byte, and only if it is `FLAG`" (R181). -/
def stripTrailingFlag (f : Bytes) : Bytes := if f.getLast? = some FLAG then f.dropLast else f

/-- The validator's strip: the leading flag first, then the trailing one (R181). -/
def stripFlags (f : Bytes) : Bytes := stripTrailingFlag (stripLeadingFlag f)

/-- The de-stuffed bytes "without their last two bytes, the FCS" (R184). -/
def dropFcs (r : Bytes) : Bytes := r.take (r.length - FCS_LEN)

end Sys2Proof.Machine
end

