-- ==== Sys2Proof/Machine/Stuffing.lean ====
section
/-! DEFINITION. The byte stuffer and de-stuffer, their operations STUFF and DESTUFF, and the byte rows TX_* and DS_*
(spec/41_stuffing.md; spec/30_encoding.md R69). -/

namespace Sys2Proof.Machine

/-! ### Stuffer -/

/-- TX_FLAG's output (R69, R111). -/
def txFlagOut : Bytes := [ESCAPE, ESC_FLAG]

/-- TX_ESC's output (R69, R111). -/
def txEscOut : Bytes := [ESCAPE, ESC_ESCAPE]

/-- TX_OTHER's output (R69, R111). -/
def txOtherOut (b : Byte) : Bytes := [b]

/-- The stuffer's output for one raw byte (R111). -/
def stuffByte (b : Byte) : Bytes :=
  if b = FLAG then txFlagOut else if b = ESCAPE then txEscOut else txOtherOut b

/-- `stuff(data)` (R111). -/
def stuff : Bytes → Bytes
  | [] => []
  | b :: rest => stuffByte b ++ stuff rest

/-- STUFF (R111). -/
def execStuff (data : Bytes) (s : State) : Answer := complete s (.bytes (stuff data))

/-- A stuffer row alone: it emits `out` and consumes its one input byte. -/
def completeTxRow (out : Bytes) (s : State) : Answer := complete s (.unit out 1 false)

/-- TX_FLAG (R69). -/
def execTxFlag (s : State) : Answer := completeTxRow txFlagOut s

/-- TX_ESC (R69). -/
def execTxEsc (s : State) : Answer := completeTxRow txEscOut s

/-- TX_OTHER (R69). -/
def execTxOther (b : Byte) (s : State) : Answer := completeTxRow (txOtherOut b) s

/-! ### De-stuffer -/

/-- The byte a de-stuffer row emits, for current byte `b` (R114, R115). -/
def dsEmit (row : DsRow) (b : Byte) : Byte :=
  match row with
  | .flag => FLAG
  | .esc => ESCAPE
  | .lone => b
  | .tail => b
  | .other => b

/-- The input bytes a de-stuffer row consumes (R114: two; R115: one). -/
def dsAdvance (row : DsRow) : Nat :=
  match row with
  | .flag => 2
  | .esc => 2
  | .lone => 1
  | .tail => 1
  | .other => 1

/-- `destuff(data)` (R113): the emitted bytes and `malformed`. -/
def destuff : Bytes → Bytes × Bool
  | [] => ([], false)
  | [b] => ([dsEmit (dsSelect b none) b], dsMalformed (dsSelect b none))
  | b :: c :: rest =>
    let row := dsSelect b (some c)
    let tail := if dsAdvance row = 2 then destuff rest else destuff (c :: rest)
    (dsEmit row b :: tail.1, dsMalformed row || tail.2)

/-- DESTUFF (R113). -/
def execDestuff (data : Bytes) (s : State) : Answer := complete s (.destuffed (destuff data).1 (destuff data).2)

/-- A de-stuffer row alone, for current byte `b`. -/
def completeDsRow (row : DsRow) (b : Byte) (s : State) : Answer :=
  complete s (.unit [dsEmit row b] (dsAdvance row) (dsMalformed row))

/-- DS_FLAG (R114). -/
def execDsFlag (s : State) : Answer := completeDsRow .flag ESCAPE s

/-- DS_ESC (R114). -/
def execDsEsc (s : State) : Answer := completeDsRow .esc ESCAPE s

/-- DS_LONE (R115): the byte after the escape is not consumed, and the row does not depend on which it is. -/
def execDsLone (_next : Byte) (s : State) : Answer := completeDsRow .lone ESCAPE s

/-- DS_TAIL (R115). -/
def execDsTail (s : State) : Answer := completeDsRow .tail ESCAPE s

/-- DS_OTHER (R115). -/
def execDsOther (b : Byte) (s : State) : Answer := completeDsRow .other b s

end Sys2Proof.Machine
end

