-- ==== Sys2Proof/Machine/Encoder.lean ====
section
/-! DEFINITION. The frame encoder and its operation ENCODE (spec/42_encoder.md). -/

namespace Sys2Proof.Machine

/-- How an encoding ends: wire bytes, an error, or the failed self-check of R135. -/
inductive EncodeResult where
  | ok (wire : Bytes)
  | error (e : ErrorCode)
  | selfCheckFailed
deriving DecidableEq, Repr

/-- "`[FLAG] ++ stuff(raw) ++ [FLAG]`" (R136, R62). -/
def wrapFrame (raw : Bytes) : Bytes := FLAG :: (stuff raw ++ [FLAG])

/-- `encode(address_id, msg_type, payload)`, its checks in the step order of R137. -/
def encodeFrame (cfg : Config) (addressId : Nat) (msgType : Byte) (payload : Bytes) : EncodeResult :=
  if addressOutOfDomain addressId then .error .invalidAddress
  else if exceedsCeiling cfg payload then .error .frameTooLarge
  else if frameCheck (rawFrame cfg addressId msgType payload) then
    .ok (wrapFrame (rawFrame cfg addressId msgType payload))
  else .selfCheckFailed

/-- ENCODE (R130). -/
def execEncode (addressId : Nat) (msgType : Byte) (payload : Bytes) (s : State) : Answer :=
  match encodeFrame s.cfg addressId msgType payload with
  | .ok wire => complete s (.bytes wire)
  | .error e => raiseError s e
  | .selfCheckFailed => .fault .encoderSelfCheck

end Sys2Proof.Machine
end

