-- ==== Sys2Proof/Machine/StreamDecoder.lean ====
section
/-! DEFINITION. The stream frame decoder: its byte rows RX_*, the operation FEED (spec/43_stream_decoder.md), the operation
DEC_RESET (spec/70_reset_and_hazards.md R230), and a FEED that overlaps other calls (spec/60_exceptions.md R208). -/

namespace Sys2Proof.Machine

/-! ### The rows' actions on one instance -/

/-- What a row of R68 does with byte `b`: the new instance state and the frames emitted. The overflow row here is its reset of
the instance alone (R151); `rxRun` adds what becomes of the byte. -/
def rxAction (row : RxRow) (dec : Decoder) (b : Byte) : Decoder × List Bytes :=
  match row with
  | .ovf => (Decoder.reset, [])
  | .esc => ({ store dec b with esc := true }, [])
  | .escd => ({ store dec b with esc := false }, [])
  | .idleF => ({ store dec b with st := .confirming }, [])
  | .idleO => (dec, [])
  | .cfmgF0 => ({ store dec b with st := .confirmed }, [])
  | .cfmgF1 => ({ dec with st := .confirmed }, [])
  | .cfmgO => ({ dec with buf := [], st := .idle }, [])
  | .cfmdF => (store dec b, [])
  | .cfmdO => ({ store dec b with st := .payload }, [])
  | .payF => ({ dec with buf := [], st := .confirming }, [(store dec b).buf])
  | .payO => (store dec b, [])

/-- `rx_byte(d, b, frames)` of R150: the byte by R153 to R158. -/
def rxByte (dec : Decoder) (b : Byte) : Decoder × List Bytes :=
  rxAction (rxSelectByte dec.buf.isEmpty dec.esc dec.st b) dec b

/-- What one byte does inside a FEED. -/
structure RxOutcome where
  /-- the new instance state -/
  dec : Decoder
  /-- the frames emitted, at most one -/
  frames : List Bytes
  /-- R151 fired -/
  overflow : Bool
  /-- the rest of the chunk is dropped -/
  stop : Bool
deriving DecidableEq, Repr

/-- A row run on byte `b`. After an overflow the byte and the rest of the chunk are dropped, or the byte is processed "by rule
R153 onward from the reset state", as the parameter says (R151, D8). -/
def rxRun (cfg : Config) (row : RxRow) (dec : Decoder) (b : Byte) : RxOutcome :=
  if row = .ovf then
    if cfg.overflowDropsRestOfChunk then
      { dec := (rxAction .ovf dec b).1, frames := [], overflow := true, stop := true }
    else
      { dec := (rxByte (rxAction .ovf dec b).1 b).1, frames := (rxByte (rxAction .ovf dec b).1 b).2,
        overflow := true, stop := false }
  else
    { dec := (rxAction row dec b).1, frames := (rxAction row dec b).2, overflow := false, stop := false }

/-- One byte of a FEED: the row it selects, run. -/
def rxStep (cfg : Config) (dec : Decoder) (b : Byte) : RxOutcome := rxRun cfg (rxRowOf cfg dec b) dec b

/-! ### FEED -/

/-- FEED's effect on its instance, and its result (R160). -/
structure FeedResult where
  dec : Decoder
  frames : List Bytes
  overflow : Bool
deriving DecidableEq, Repr

/-- The byte loop of R150 and R159. -/
def feedLoop (cfg : Config) (dec : Decoder) : Bytes → FeedResult
  | [] => { dec := dec, frames := [], overflow := false }
  | b :: rest =>
    let o := rxStep cfg dec b
    if o.stop then { dec := o.dec, frames := o.frames, overflow := o.overflow }
    else
      let r := feedLoop cfg o.dec rest
      { dec := r.dec, frames := o.frames ++ r.frames, overflow := o.overflow || r.overflow }

/-- FEED (R150). -/
def execFeed (d : Nat) (chunk : Bytes) (s : State) : Answer :=
  withDecoder s d fun dec =>
    let r := feedLoop s.cfg dec chunk
    complete (s.setDecoder d r.dec) (.frames r.frames r.overflow)

/-! ### DEC_RESET -/

/-- DEC_RESET (R230). -/
def execDecReset (d : Nat) (s : State) : Answer :=
  withDecoder s d fun _ => complete (s.setDecoder d Decoder.reset) .done

/-! ### The byte rows alone -/

/-- Row `row` run alone on byte `b` of instance `d`, with FEED's result form. A row that the instance's state and the byte do
not select has no effect in R68: it is refused. Log entry 5. -/
def runRxRow (row : RxRow) (d : Nat) (b : Byte) (s : State) : Answer :=
  withDecoder s d fun dec =>
    if rxRowOf s.cfg dec b = row then
      let o := rxRun s.cfg row dec b
      complete (s.setDecoder d o.dec) (.frames o.frames o.overflow)
    else .refused (.rowNotSelected row)

/-- RX_OVF (R151). -/
def execRxOvf (d : Nat) (b : Byte) (s : State) : Answer := runRxRow .ovf d b s

/-- RX_ESC (R153). -/
def execRxEsc (d : Nat) (s : State) : Answer := runRxRow .esc d ESCAPE s

/-- RX_ESCD (R154). -/
def execRxEscd (d : Nat) (b : Byte) (s : State) : Answer := runRxRow .escd d b s

/-- RX_IDLE_F (R155). -/
def execRxIdleF (d : Nat) (s : State) : Answer := runRxRow .idleF d FLAG s

/-- RX_IDLE_O (R155). -/
def execRxIdleO (d : Nat) (b : Byte) (s : State) : Answer := runRxRow .idleO d b s

/-- RX_CFMG_F0 (R156). -/
def execRxCfmgF0 (d : Nat) (s : State) : Answer := runRxRow .cfmgF0 d FLAG s

/-- RX_CFMG_F1 (R156). -/
def execRxCfmgF1 (d : Nat) (s : State) : Answer := runRxRow .cfmgF1 d FLAG s

/-- RX_CFMG_O (R156). -/
def execRxCfmgO (d : Nat) (b : Byte) (s : State) : Answer := runRxRow .cfmgO d b s

/-- RX_CFMD_F (R157). -/
def execRxCfmdF (d : Nat) (s : State) : Answer := runRxRow .cfmdF d FLAG s

/-- RX_CFMD_O (R157). -/
def execRxCfmdO (d : Nat) (b : Byte) (s : State) : Answer := runRxRow .cfmdO d b s

/-- RX_PAY_F (R158). -/
def execRxPayF (d : Nat) (s : State) : Answer := runRxRow .payF d FLAG s

/-- RX_PAY_O (R158). -/
def execRxPayO (d : Nat) (b : Byte) (s : State) : Answer := runRxRow .payO d b s

/-! ### A FEED that overlaps other calls (R208). Log entry 4. -/

/-- FEED `(d, chunk)` is issued and does not complete yet. Its effect on `D[d]` is taken here: until it completes, nothing may
touch `D[d]`, and everything else commutes with it (spec/20_memory.md R48). Its result is held. -/
def openFeed (d : Nat) (chunk : Bytes) (s : State) : Answer :=
  withDecoder s d fun dec =>
    let r := feedLoop s.cfg dec chunk
    .next { s.setDecoder d r.dec with
      inFlight := s.inFlight ++ [{ d := d, response := .frames r.frames r.overflow }] }

/-- The open FEED on `d` completes: its result goes back to the host. -/
def completeFeed (d : Nat) (s : State) : Answer :=
  match s.inFlight.find? (fun o => decide (o.d = d)) with
  | none => .refused (.noOpenFeed d)
  | some o => complete { s with inFlight := s.inFlight.filter (fun o => decide (o.d ≠ d)) } o.response

end Sys2Proof.Machine
end

