-- ==== Sys2Proof/Machine/Validator.lean ====
section
/-! DEFINITION. The frame validator's operation VALIDATE, and the header boundary PARSE_HEADER (spec/44_validator.md). -/

namespace Sys2Proof.Machine

/-- VALIDATE (R180): strip, de-stuff, and the two causes of BadFcs in the order of spec/60_exceptions.md R204. -/
def execValidate (frame : Bytes) (s : State) : Answer :=
  let r := destuff (stripFlags frame)
  if r.2 then raiseError s .badFcs
  else if frameCheck r.1 then complete s (.bytes (dropFcs r.1))
  else raiseError s .badFcs

/-- PARSE_HEADER (R190): "address=0, control=1, protocol_id=2, msg_type=3; payload begins at offset 4". -/
def execParseHeader (body : Bytes) (s : State) : Answer :=
  match body with
  | address :: control :: protocolId :: msgType :: payload =>
    complete s (.header address control protocolId msgType payload)
  | _ => raiseError s .truncatedFrame

end Sys2Proof.Machine
end

