-- ==== Sys2Proof/Machine/Dispatch.lean ====
section
/-! DEFINITION. One arm for each row of spec/opcode_table.json. -/

namespace Sys2Proof.Machine

def exec (i : Instr) (s : State) : Host.Outcome State Fault Refusal :=
  match i with
  | .crcStep seed b => Sys2Proof.Machine.execCrcStep seed b s
  | .fcs seed data => Sys2Proof.Machine.execFcs seed data s
  | .stuff data => Sys2Proof.Machine.execStuff data s
  | .destuff data => Sys2Proof.Machine.execDestuff data s
  | .encode addressId msgType payload => Sys2Proof.Machine.execEncode addressId msgType payload s
  | .decReset d => Sys2Proof.Machine.execDecReset d s
  | .feed d chunk => Sys2Proof.Machine.execFeed d chunk s
  | .validate frame => Sys2Proof.Machine.execValidate frame s
  | .parseHeader body => Sys2Proof.Machine.execParseHeader body s
  | .rxOvf d b => Sys2Proof.Machine.execRxOvf d b s
  | .rxEsc d => Sys2Proof.Machine.execRxEsc d s
  | .rxEscd d b => Sys2Proof.Machine.execRxEscd d b s
  | .rxIdleF d => Sys2Proof.Machine.execRxIdleF d s
  | .rxIdleO d b => Sys2Proof.Machine.execRxIdleO d b s
  | .rxCfmgF0 d => Sys2Proof.Machine.execRxCfmgF0 d s
  | .rxCfmgF1 d => Sys2Proof.Machine.execRxCfmgF1 d s
  | .rxCfmgO d b => Sys2Proof.Machine.execRxCfmgO d b s
  | .rxCfmdF d => Sys2Proof.Machine.execRxCfmdF d s
  | .rxCfmdO d b => Sys2Proof.Machine.execRxCfmdO d b s
  | .rxPayF d => Sys2Proof.Machine.execRxPayF d s
  | .rxPayO d b => Sys2Proof.Machine.execRxPayO d b s
  | .txFlag => Sys2Proof.Machine.execTxFlag s
  | .txEsc => Sys2Proof.Machine.execTxEsc s
  | .txOther b => Sys2Proof.Machine.execTxOther b s
  | .dsFlag => Sys2Proof.Machine.execDsFlag s
  | .dsEsc => Sys2Proof.Machine.execDsEsc s
  | .dsLone next => Sys2Proof.Machine.execDsLone next s
  | .dsTail => Sys2Proof.Machine.execDsTail s
  | .dsOther b => Sys2Proof.Machine.execDsOther b s

end Sys2Proof.Machine
end

