-- ==== Sys2Proof/Machine/Fetch.lean ====
section
/-! DEFINITION. How an encoded form that the host issues becomes an instruction, with the refusals of spec/30_encoding.md R75;
and how a word of the opcode table is placed as the next one. -/

namespace Sys2Proof.Machine

/-- The refusal of a record that selects no operation (R75). -/
def refusalOf (e : DecodeError) : Refusal :=
  match e with
  | .unassignedCode code => .unassignedCode code
  | .illFormedRecord => .illFormedRecord

/-- The context in which `f` is decoded: that of the instance a decoder byte names; the other forms read none. -/
def fetchContext (s : State) (f : Fetch) : Option RxContext :=
  match f with
  | .rxByte d _ =>
    match s.decoders[d]? with
    | some dec => some (rxContext s.cfg dec)
    | none => none
  | .record _ => some resetContext
  | .txByte _ => some resetContext
  | .dsByte _ _ => some resetContext

/-- The instance a decoder byte names. -/
def fetchInstance (f : Fetch) : Nat :=
  match f with
  | .rxByte d _ => d
  | .record _ => 0
  | .txByte _ => 0
  | .dsByte _ _ => 0

/-- The instruction that `f` is in state `s`, or why there is none. -/
def fetchInstr (s : State) (f : Fetch) : Except Refusal Instr :=
  match fetchContext s f with
  | none => .error (.noSuchInstance (fetchInstance f))
  | some c =>
    match decodeFetch c f with
    | .ok i => .ok i
    | .error e => .error (refusalOf e)

/-- `f` placed before everything the host has issued. A decoder byte is read in the state of its instance, so that instance
is put in its reset state, in which `decodeTableWord` reads the byte. Log entry 7. -/
def placeFetch (s : State) (f : Fetch) : State :=
  match f with
  | .rxByte d _ => { s.setDecoder d Decoder.reset with inbox := .issue f :: s.inbox }
  | .record _ => { s with inbox := .issue f :: s.inbox }
  | .txByte _ => { s with inbox := .issue f :: s.inbox }
  | .dsByte _ _ => { s with inbox := .issue f :: s.inbox }

end Sys2Proof.Machine
end

