-- ==== Sys2Proof/Machine/Step.lean ====
section
/-! DEFINITION. One step: the host's oldest request is taken and served whole (spec/00_scope.md R5, spec/20_memory.md R48). -/

namespace Sys2Proof.Machine

open Host

/-- One step. With no request pending the block waits, unchanged (log entry 3). A record that selects no operation is refused
(R75, R209). -/
def step (s : State) : Outcome State Fault Refusal :=
  match s.inbox with
  | [] => .next s
  | .issue f :: rest =>
    match fetchInstr s f with
    | .ok i => exec i { s with inbox := rest }
    | .error r => .refused r
  | .openFeed d chunk :: rest => openFeed d chunk { s with inbox := rest }
  | .completeFeed d :: rest => completeFeed d { s with inbox := rest }

/-- `s` with the instruction of a word of the opcode table as the host's next request. Log entry 7. -/
def State.withFetchWord (s : State) (nbits w : Nat) : State := placeFetch s (tableFetch nbits w)

end Sys2Proof.Machine
end

