-- ==== Sys2Proof/Safety.lean ====
section
/-! DEFINITION. What a well-formed state is (spec/10_state.md R22, spec/00_scope.md R9), and what a safe step is: one that
reaches neither fault of spec/60_exceptions.md R206 and R208. -/

namespace Sys2Proof.Machine

/-- R22 item 1. -/
def Decoder.fits (cfg : Config) (dec : Decoder) : Bool := Memory.wf cfg.bufCap dec.buf

/-- R22 item 2: `esc = true` exactly when the buffer's last byte is ESCAPE. -/
def Decoder.escMatches (dec : Decoder) : Bool := dec.esc == (dec.buf.getLast? == some ESCAPE)

/-- R22 items 3 and 4: the least buffer length of each state. -/
def Decoder.minLength (dec : Decoder) : Nat :=
  match dec.st with
  | .idle => 0
  | .confirming => 0
  | .confirmed => 1
  | .payload => 2

/-- The first byte of a buffer was stored by R153, R155 or R156 (spec/43_stream_decoder.md R164 item 3): it is ESCAPE or FLAG. -/
def Decoder.headOk (dec : Decoder) : Bool :=
  match dec.buf with
  | [] => true
  | b :: _ => b == FLAG || b == ESCAPE

/-- The invariants of R22 for one instance, with that of R164 item 3. -/
def Decoder.wf (cfg : Config) (dec : Decoder) : Bool :=
  dec.fits cfg && dec.escMatches && decide (dec.minLength ≤ dec.cursor) && dec.headOk

/-- The open FEEDs name instances, each at most once (R208). -/
def State.inFlightWf (s : State) : Bool :=
  s.inFlight.all (fun o => decide (o.d < s.cfg.nDecoders)) && decide (s.inFlight.map OpenFeed.d).Nodup

/-- The invariant of the model: a parameter record that meets R9, one entry for each of the `N_DECODERS` instances (R20), each
meeting R22, and well-formed open FEEDs. -/
def State.wf (s : State) : Bool :=
  s.cfg.wf && decide (s.decoders.length = s.cfg.nDecoders) && s.decoders.all (fun dec => dec.wf s.cfg) && s.inFlightWf

/-- The answer is no fault. -/
def faultFree (a : Answer) : Bool :=
  match a with
  | .next _ => true
  | .refused _ => true
  | .fault _ => false

/-- The next state of an answer, if there is one. -/
def nextState (a : Answer) : Option State :=
  match a with
  | .next s => some s
  | .refused _ => none
  | .fault _ => none

end Sys2Proof.Machine
end

