-- ==== Sys2Proof/Certificates/Slice0/SpecText.lean ====
section
/-! DEFINITION. What the statements of Obligations.lean compare the machine with: the spec's pseudocode and tables, transcribed
as they stand (loops with an index and a bound on the iterations, byte values as literals), and the notions its prose uses.
Nothing of the machine is defined from these. -/

namespace Sys2Proof.SpecText

open Sys2Proof.Machine

/-! ### spec/40_crc.md -/

/-- One iteration of R101's inner loop. -/
def shiftStep (v : U16) : U16 := if v.getLsbD 0 then (v >>> 1) ^^^ 0x8408#16 else v >>> 1

/-- R101's "repeat 8 times". -/
def shift8 (v : U16) : U16 := shiftStep^[8] v

/-- `crc_step` of R102. -/
def crcStep (seed : U16) (b : Byte) : U16 :=
  (seed >>> 8) ^^^ crcTable.getD ((seed ^^^ b.setWidth 16).toNat % 256) 0

/-- `fcs` of R102. -/
def fcs (seed : U16) : Bytes → U16
  | [] => seed
  | b :: rest => fcs (crcStep seed b) rest

/-! ### spec/30_encoding.md R73 -/

/-- A `u32` field: little-endian. -/
def le32 (n : Nat) : Bytes :=
  [BitVec.ofNat 8 n, BitVec.ofNat 8 (n / 256), BitVec.ofNat 8 (n / 65536), BitVec.ofNat 8 (n / 16777216)]

/-- A `bytes` operand: "a `u32` length `n` followed by `n` bytes". -/
def counted (data : Bytes) : Bytes := le32 data.length ++ data

/-- A `u16` field: little-endian. -/
def le16 (v : U16) : Bytes := [BitVec.ofNat 8 v.toNat, BitVec.ofNat 8 (v.toNat / 256)]

/-! ### spec/41_stuffing.md -/

/-- The loop body of R111. -/
def stuffOne (b : Byte) : Bytes :=
  if b = 0x7E#8 then [0x7D#8, 0x5E#8] else if b = 0x7D#8 then [0x7D#8, 0x5D#8] else [b]

/-- The loop of R113, at most `fuel` iterations. -/
def destuffLoop (data : Bytes) : Nat → Nat → Bytes → Bool → Bytes × Bool
  | 0, _, out, malformed => (out, malformed)
  | fuel + 1, i, out, malformed =>
    if i < data.length then
      if data[i]? = some 0x7D#8 ∧ i + 1 < data.length ∧ data[i + 1]? = some 0x5E#8 then
        destuffLoop data fuel (i + 2) (out ++ [0x7E#8]) malformed
      else if data[i]? = some 0x7D#8 ∧ i + 1 < data.length ∧ data[i + 1]? = some 0x5D#8 then
        destuffLoop data fuel (i + 2) (out ++ [0x7D#8]) malformed
      else if data[i]? = some 0x7D#8 ∧ i + 1 = data.length then
        destuffLoop data fuel (i + 1) (out ++ [0x7D#8]) true
      else destuffLoop data fuel (i + 1) (out ++ [data.getD i 0]) malformed
    else (out, malformed)

/-- The same loop over ONE memory of `n` bytes, read at `i` and written at `w` (R116): the memory and the write index it ends
with, and `malformed`. -/
def inPlaceLoop (n : Nat) : Nat → Nat → Nat → Bytes → Bool → Bytes × Nat × Bool
  | 0, _, w, mem, malformed => (mem, w, malformed)
  | fuel + 1, i, w, mem, malformed =>
    if i < n then
      if mem[i]? = some 0x7D#8 ∧ i + 1 < n ∧ mem[i + 1]? = some 0x5E#8 then
        inPlaceLoop n fuel (i + 2) (w + 1) (mem.set w 0x7E#8) malformed
      else if mem[i]? = some 0x7D#8 ∧ i + 1 < n ∧ mem[i + 1]? = some 0x5D#8 then
        inPlaceLoop n fuel (i + 2) (w + 1) (mem.set w 0x7D#8) malformed
      else if mem[i]? = some 0x7D#8 ∧ i + 1 = n then
        inPlaceLoop n fuel (i + 1) (w + 1) (mem.set w 0x7D#8) true
      else inPlaceLoop n fuel (i + 1) (w + 1) (mem.set w (mem.getD i 0)) malformed
    else (mem, w, malformed)

/-! ### spec/42_encoder.md -/

/-- The address byte of R130 step 1. -/
def addr (addressId : Nat) : Byte := if addressId = 63 then 0xFF#8 else BitVec.ofNat 8 ((addressId <<< 2) ||| 1)

/-- Header and payload, R130 step 2. -/
def body (cfg : Config) (addressId : Nat) (msgType : Byte) (payload : Bytes) : Bytes :=
  [addr addressId, cfg.controlConst, cfg.protocolIdConst, msgType] ++ payload

/-- The raw frame after R130 step 4. -/
def raw (cfg : Config) (addressId : Nat) (msgType : Byte) (payload : Bytes) : Bytes :=
  let m := body cfg addressId msgType payload
  m ++ [BitVec.ofNat 8 (~~~(fcs 0xFFFF#16 m)).toNat, BitVec.ofNat 8 ((~~~(fcs 0xFFFF#16 m)).toNat / 256)]

/-- R130 step 6. -/
def wire (cfg : Config) (addressId : Nat) (msgType : Byte) (payload : Bytes) : Bytes :=
  [0x7E#8] ++ (raw cfg addressId msgType payload).flatMap stuffOne ++ [0x7E#8]

/-- The encoder accepts these operands: R131 and R133. -/
def Encodable (cfg : Config) (addressId : Nat) (payload : Bytes) : Prop :=
  addressId ≤ 63 ∧ 4 + payload.length + 2 ≤ cfg.maxRawFrame

/-- A byte of the raw frame is neither reserved byte (the condition of spec/43_stream_decoder.md R163). -/
def HasOrdinaryByte (r : Bytes) : Prop := ∃ b ∈ r, b ≠ 0x7E#8 ∧ b ≠ 0x7D#8

/-! ### spec/43_stream_decoder.md -/

/-- The reset state of an instance (spec/10_state.md R30). -/
def fresh : Decoder := { st := .idle, buf := [], esc := false }

/-- The state after any emitted frame (R163). -/
def afterFrame : Decoder := { st := .confirming, buf := [], esc := false }

/-- `rx_byte(d, b, frames)` of R150. -/
def rxByte (D : Decoder) (b : Byte) (frames : List Bytes) : Decoder × List Bytes :=
  if b = 0x7D#8 then ({ D with buf := D.buf ++ [b], esc := true }, frames)
  else if D.esc then ({ D with buf := D.buf ++ [b], esc := false }, frames)
  else match D.st with
    | .idle => if b = 0x7E#8 then ({ D with buf := D.buf ++ [b], st := .confirming }, frames) else (D, frames)
    | .confirming =>
      if b = 0x7E#8 then
        if D.buf.length = 0 then ({ D with buf := D.buf ++ [b], st := .confirmed }, frames)
        else ({ D with st := .confirmed }, frames)
      else ({ D with buf := [], st := .idle }, frames)
    | .confirmed => ({ D with buf := D.buf ++ [b], st := if b ≠ 0x7E#8 then .payload else D.st }, frames)
    | .payload =>
      if b = 0x7E#8 then ({ D with buf := [], st := .confirming }, frames ++ [D.buf ++ [b]])
      else ({ D with buf := D.buf ++ [b] }, frames)

/-- The loop of R150's `feed`, at most `fuel` iterations. -/
def feedLoop (cfg : Config) (chunk : Bytes) : Nat → Nat → Decoder → List Bytes → Bool → Decoder × List Bytes × Bool
  | 0, _, D, frames, overflow => (D, frames, overflow)
  | fuel + 1, i, D, frames, overflow =>
    if i < chunk.length then
      if D.buf.length ≥ cfg.bufCap then
        if cfg.overflowDropsRestOfChunk then (fresh, frames, true)
        else
          let r := rxByte fresh (chunk.getD i 0) frames
          feedLoop cfg chunk fuel (i + 1) r.1 r.2 true
      else
        let r := rxByte D (chunk.getD i 0) frames
        feedLoop cfg chunk fuel (i + 1) r.1 r.2 overflow
    else (D, frames, overflow)

/-- R150's `feed(d, chunk)` on instance state `D`: the new state, the frames and the overflow flag. -/
def feed (cfg : Config) (D : Decoder) (chunk : Bytes) : Decoder × List Bytes × Bool :=
  feedLoop cfg chunk chunk.length 0 D [] false

/-- The conditions of R68's table, each with what the rows tried before it exclude. -/
def RowCondition (cfg : Config) (D : Decoder) (b : Byte) : RxRow → Prop
  | .ovf => D.buf.length ≥ cfg.bufCap
  | .esc => D.buf.length < cfg.bufCap ∧ b = 0x7D#8
  | .escd => D.buf.length < cfg.bufCap ∧ D.esc = true ∧ b ≠ 0x7D#8
  | .idleF => D.buf.length < cfg.bufCap ∧ D.esc = false ∧ D.st = .idle ∧ b = 0x7E#8
  | .idleO => D.buf.length < cfg.bufCap ∧ D.esc = false ∧ D.st = .idle ∧ b ≠ 0x7E#8 ∧ b ≠ 0x7D#8
  | .cfmgF0 => D.buf.length < cfg.bufCap ∧ D.esc = false ∧ D.st = .confirming ∧ b = 0x7E#8 ∧ D.buf.length = 0
  | .cfmgF1 => D.buf.length < cfg.bufCap ∧ D.esc = false ∧ D.st = .confirming ∧ b = 0x7E#8 ∧ D.buf.length > 0
  | .cfmgO => D.buf.length < cfg.bufCap ∧ D.esc = false ∧ D.st = .confirming ∧ b ≠ 0x7E#8 ∧ b ≠ 0x7D#8
  | .cfmdF => D.buf.length < cfg.bufCap ∧ D.esc = false ∧ D.st = .confirmed ∧ b = 0x7E#8
  | .cfmdO => D.buf.length < cfg.bufCap ∧ D.esc = false ∧ D.st = .confirmed ∧ b ≠ 0x7E#8 ∧ b ≠ 0x7D#8
  | .payF => D.buf.length < cfg.bufCap ∧ D.esc = false ∧ D.st = .payload ∧ b = 0x7E#8
  | .payO => D.buf.length < cfg.bufCap ∧ D.esc = false ∧ D.st = .payload ∧ b ≠ 0x7E#8 ∧ b ≠ 0x7D#8

/-! ### spec/44_validator.md -/

/-- The two strip lines of R180. -/
def strip (frame : Bytes) : Bytes :=
  let f := if 1 ≤ frame.length ∧ frame[0]? = some 0x7E#8 then frame.drop 1 else frame
  if 1 ≤ f.length ∧ f[f.length - 1]? = some 0x7E#8 then f.take (f.length - 1) else f

/-- R180's `validate(frame)`: the bytes of `Ok`, or `none` for BadFcs. The de-stuffer is R113's loop. -/
def validate (frame : Bytes) : Option Bytes :=
  let f := strip frame
  let r := destuffLoop f f.length 0 [] false
  if r.2 then none
  else if fcs 0xFFFF#16 r.1 ≠ 0xF0B8#16 then none
  else some (r.1.take (r.1.length - 2))

/-! ### Instances and runs -/

/-- The instance an instruction names, if it names one: FEED, DEC_RESET and the decoder rows (spec/20_memory.md R48). The others
are the pure operations and rows. -/
def instanceOf : Instr → Option Nat
  | .decReset d => some d
  | .feed d _ => some d
  | .rxOvf d _ => some d
  | .rxEsc d => some d
  | .rxEscd d _ => some d
  | .rxIdleF d => some d
  | .rxIdleO d _ => some d
  | .rxCfmgF0 d => some d
  | .rxCfmgF1 d => some d
  | .rxCfmgO d _ => some d
  | .rxCfmdF d => some d
  | .rxCfmdO d _ => some d
  | .rxPayF d => some d
  | .rxPayO d _ => some d
  | .crcStep _ _ => none
  | .fcs _ _ => none
  | .stuff _ => none
  | .destuff _ => none
  | .encode _ _ _ => none
  | .validate _ => none
  | .parseHeader _ => none
  | .txFlag => none
  | .txEsc => none
  | .txOther _ => none
  | .dsFlag => none
  | .dsEsc => none
  | .dsLone _ => none
  | .dsTail => none
  | .dsOther _ => none

/-- `D[d]` is `D`, and no FEED on `d` is open: FEED and DEC_RESET on `d` execute (spec/30_encoding.md R75,
spec/60_exceptions.md R208). -/
def Ready (s : State) (d : Nat) (D : Decoder) : Prop := s.decoders[d]? = some D ∧ ∀ o ∈ s.inFlight, o.d ≠ d

/-- `s` with `D[d]` set to `D` and result `r` returned: nothing else is touched. -/
def served (s : State) (d : Nat) (D : Decoder) (r : Response) : State :=
  { s with decoders := s.decoders.set d D, outbox := s.outbox ++ [r] }

/-- `s` with result `r` returned: nothing else is touched. -/
def returned (s : State) (r : Response) : State := { s with outbox := s.outbox ++ [r] }

/-- The operations of a list in turn, up to the first stop. -/
def runAll : List Instr → State → Answer
  | [], s => .next s
  | i :: rest, s =>
    match exec i s with
    | .next t => runAll rest t
    | .fault f => .fault f
    | .refused r => .refused r

/-- The test instantiation of spec/00_scope.md R13, with R8's defaults and two instances. -/
def testConfig : Config where
  maxRawFrame := 256
  bufCap := 8192
  controlConst := 0x03#8
  protocolIdConst := 0x00#8
  overflowDropsRestOfChunk := true
  nDecoders := 2

/-- The wire frame `E1` of spec/95_test_vectors.md. -/
def E1 : Bytes := [0x7E#8, 0x05#8, 0x03#8, 0x00#8, 0x13#8, 0x01#8, 0x02#8, 0x03#8, 0x35#8, 0xCD#8, 0x7E#8]

end Sys2Proof.SpecText
end

