-- ==== Sys2Proof/Machine/ResponseRecord.lean ====
section
/-! DEFINITION. The response records of spec/30_encoding.md R74: what a result is as bytes. -/

namespace Sys2Proof.Machine

/-- A `u32` count of a response. R74 gives it 32 bits; a count that does not fit them leaves the field a free value. Log entry 6. -/
def countField (n : Nat) : Bytes :=
  if n < 2 ^ 32 then u32Field (BitVec.ofNat 32 n) else u32Field (freeLengthField n)

/-- `[m:u32] [bytes × m]`. -/
def countedBytes (data : Bytes) : Bytes := countField data.length ++ data

/-- A flag byte: `00` or `01`. -/
def flagField (f : Bool) : Byte := if f then 0x01#8 else 0x00#8

/-- The response record of an operation's result (R74). A stuffer or de-stuffer row alone has none. -/
def responseRecord (r : Response) : Option Bytes :=
  match r with
  | .value v => some (0x00#8 :: u16Field v)
  | .bytes data => some (0x00#8 :: countedBytes data)
  | .destuffed data malformed => some (0x00#8 :: flagField malformed :: countedBytes data)
  | .done => some [0x00#8]
  | .frames fs overflow => some (feedStatus overflow :: (countField fs.length ++ fs.flatMap countedBytes))
  | .header address control protocolId msgType payload =>
    some (0x00#8 :: address :: control :: protocolId :: msgType :: countedBytes payload)
  | .error e => some [e.status]
  | .unit _ _ _ => none

end Sys2Proof.Machine
end

