-- ==== Sys2Proof/Certificates/Slice0/Obligations.lean ====
section
/-! DEFINITION. The statements for the provers, file by file of spec/. Each docstring names the rule or section a statement
formalises. `served` and `returned` (SpecText) say of a next state what it holds and that nothing else changed. -/

open Sys2Proof Sys2Proof.Machine Sys2Proof.SpecText

/-! ### spec/40_crc.md -/

/-- The ROM holds what R101's generating loop gives for each of the 256 indices (R101 marks the contents as general knowledge,
D5). -/
def Obligations.CrcTableIsGenerated : Prop :=
  crcTable.length = 256 ∧ ∀ i : Byte, crcWord i = shift8 (i.setWidth 16)

/-- R103: CRC_STEP's result, its record, that it completes in every state and touches nothing, its corner cases and its
example. -/
def Obligations.CrcStepOperation : Prop :=
  (∀ (s : State) (seed : U16) (b : Byte),
    exec (.crcStep seed b) s = .next (returned s (.value (SpecText.crcStep seed b)))) ∧
  (∀ (seed : U16) (b : Byte), decodeRecord ([0x01#8] ++ le16 seed ++ [b]) = .ok (.crcStep seed b)) ∧
  SpecText.crcStep 0x0000#16 0x00#8 = 0x0000#16 ∧
  (∀ (seed : U16) (b : Byte), SpecText.crcStep seed b =
    (highByte seed).setWidth 16 ^^^ crcTable.getD (lowByte (seed ^^^ b.setWidth 16)).toNat 0) ∧
  (∀ (seed : U16) (b : Byte),
    SpecText.crcStep seed b = (highByte seed).setWidth 16 ^^^ crcTable.getD (lowByte seed ^^^ b).toNat 0) ∧
  lowByte (0xFFFF#16 ^^^ 0x0005#16) = 0xFA#8 ∧ crcTable.getD 0xFA 0 = 0x58D5#16 ∧
  SpecText.crcStep 0xFFFF#16 0x05#8 = 0x00FF#16 ^^^ 0x58D5#16 ∧ 0x00FF#16 ^^^ 0x58D5#16 = 0x582A#16

/-- R104: FCS's result, its record, that it completes in every state and touches nothing, its corner cases and its example. -/
def Obligations.FcsOperation : Prop :=
  (∀ (s : State) (seed : U16) (data : Bytes),
    exec (.fcs seed data) s = .next (returned s (.value (SpecText.fcs seed data)))) ∧
  (∀ (seed : U16) (data : Bytes), data.length < 2 ^ 32 →
    decodeRecord ([0x02#8] ++ le16 seed ++ counted data) = .ok (.fcs seed data)) ∧
  (∀ seed : U16, SpecText.fcs seed [] = seed) ∧
  SpecText.fcs INIT_FCS [] = 0xFFFF#16 ∧ SpecText.fcs INIT_FCS [] ≠ GOOD_FCS ∧
  (∀ n : Nat, SpecText.fcs 0x0000#16 (List.replicate n 0x00#8) = 0x0000#16) ∧
  SpecText.fcs 0xFFFF#16 [0x05#8, 0x03#8, 0x00#8, 0x13#8, 0x01#8, 0x02#8, 0x03#8] = 0x32CA#16

/-- 20_memory.md R44 and 40_crc.md R101: a CRC step is the reflected form, eight shifts of the generator on `seed xor b`, least
significant bit first. -/
def Obligations.CrcStepIsBitSerial : Prop :=
  ∀ (seed : U16) (b : Byte), Machine.crcStep seed b = shift8 (seed ^^^ b.setWidth 16)

/-- The residue law, which R105 marks as derived, and the chaining law, which R108 does: from any seed, a sequence followed by
its own FCS bytes checks to GOOD_FCS, and a span may be processed in pieces. -/
def Obligations.FcsResidueLaw : Prop :=
  (∀ (seed : U16) (m : Bytes), Machine.fcs seed (m ++ fcsBytes (Machine.fcs seed m)) = GOOD_FCS) ∧
  (∀ m : Bytes, frameCheck (withFcs m) = true) ∧
  (∀ (seed : U16) (a b : Bytes), Machine.fcs seed (a ++ b) = Machine.fcs (Machine.fcs seed a) b)

/-- The facts about short inputs and single-bit errors that R107 marks as derived, items 1 to 4. -/
def Obligations.FrameCheckShortInputs : Prop :=
  frameCheck [] = false ∧
  (∀ b : Byte, frameCheck [b] = false) ∧
  (∀ a b : Byte, frameCheck [a, b] = true ↔ a = 0x00#8 ∧ b = 0x00#8) ∧
  frameCheck [0x05#8, 0x03#8, 0x00#8, 0x13#8, 0x01#8, 0x9E#8, 0x62#8] = true ∧
  (∀ (i : Fin 7) (k : Fin 8),
    frameCheck ([0x05#8, 0x03#8, 0x00#8, 0x13#8, 0x01#8, 0x9E#8, 0x62#8].modify i.val (· ^^^ (1#8 <<< k.val))) = false)

/-! ### spec/41_stuffing.md -/

/-- R111: STUFF's result, its record, that it completes in every state and touches nothing, its corner cases and its
example. -/
def Obligations.StuffOperation : Prop :=
  (∀ (s : State) (data : Bytes), exec (.stuff data) s = .next (returned s (.bytes (data.flatMap stuffOne)))) ∧
  (∀ data : Bytes, data.length < 2 ^ 32 → decodeRecord ([0x03#8] ++ counted data) = .ok (.stuff data)) ∧
  Machine.stuff [] = [] ∧
  Machine.stuff [0x5E#8] = [0x5E#8] ∧ Machine.stuff [0x5D#8] = [0x5D#8] ∧
  Machine.stuff [0x7D#8, 0x7E#8] = [0x7D#8, 0x5D#8, 0x7D#8, 0x5E#8] ∧
  Machine.stuff [0x41#8, 0x7E#8, 0x42#8] = [0x41#8, 0x7D#8, 0x5E#8, 0x42#8]

/-- The stuffer's guarantees, which R112 marks as derived, items 1 to 4. Item 2 says that wherever an ESCAPE stands in the
output, it and the byte after it are the whole output for one input byte. -/
def Obligations.StufferGuarantees : Prop :=
  (∀ x : Bytes, FLAG ∉ Machine.stuff x) ∧
  (∀ x p q : Bytes, Machine.stuff x = p ++ ESCAPE :: q →
    ∃ (x1 x2 : Bytes) (v c : Byte), x = x1 ++ v :: x2 ∧ (c = ESC_FLAG ∨ c = ESC_ESCAPE) ∧
      p = Machine.stuff x1 ∧ Machine.stuff [v] = [ESCAPE, c] ∧ q = c :: Machine.stuff x2) ∧
  (∀ x : Bytes, (Machine.stuff x).length = x.length + x.countP (fun b => b == FLAG || b == ESCAPE)) ∧
  (∀ a b : Bytes, Machine.stuff (a ++ b) = Machine.stuff a ++ Machine.stuff b)

/-- R113: DESTUFF is the loop the rule gives, its record, that it completes in every state and touches nothing, its corner case
and its example. -/
def Obligations.DestuffOperation : Prop :=
  (∀ (s : State) (data : Bytes), exec (.destuff data) s =
    .next (returned s (.destuffed (destuffLoop data data.length 0 [] false).1 (destuffLoop data data.length 0 [] false).2))) ∧
  (∀ data : Bytes, data.length < 2 ^ 32 → decodeRecord ([0x04#8] ++ counted data) = .ok (.destuff data)) ∧
  destuff [] = ([], false) ∧
  destuff [0x41#8, 0x7D#8, 0x5E#8, 0x42#8] = ([0x41#8, 0x7E#8, 0x42#8], false)

/-- 41_stuffing.md's two escape pairs, as the loop treats them (R114's examples among them) and as the rows DS_FLAG and DS_ESC
alone. That a row runs alone, and the `.unit` form of its result, is the model's own choice (log entry 5). -/
def Obligations.DestuffEscapePairs : Prop :=
  (∀ rest : Bytes, destuff (0x7D#8 :: 0x5E#8 :: rest) = (0x7E#8 :: (destuff rest).1, (destuff rest).2)) ∧
  (∀ rest : Bytes, destuff (0x7D#8 :: 0x5D#8 :: rest) = (0x7D#8 :: (destuff rest).1, (destuff rest).2)) ∧
  (∀ s : State, exec .dsFlag s = .next (returned s (.unit [0x7E#8] 2 false))) ∧
  (∀ s : State, exec .dsEsc s = .next (returned s (.unit [0x7D#8] 2 false))) ∧
  destuff [0x7D#8, 0x5E#8] = ([0x7E#8], false) ∧ destuff [0x7D#8, 0x5D#8] = ([0x7D#8], false) ∧
  destuff [0x7D#8, 0x5D#8, 0x5E#8] = ([0x7D#8, 0x5E#8], false)

/-- 41_stuffing.md's other bytes: each is emitted unchanged and consumes one byte, as the loop treats it (R115's examples among
them) and as the rows DS_LONE, DS_TAIL and DS_OTHER alone. That a row runs alone, and the `.unit` form of its result, is the
model's own choice (log entry 5). -/
def Obligations.DestuffOtherBytes : Prop :=
  (∀ (x : Byte) (rest : Bytes), x ≠ 0x5E#8 → x ≠ 0x5D#8 →
    destuff (0x7D#8 :: x :: rest) = (0x7D#8 :: (destuff (x :: rest)).1, (destuff (x :: rest)).2)) ∧
  destuff [0x7D#8] = ([0x7D#8], true) ∧
  (∀ (b : Byte) (rest : Bytes), b ≠ 0x7D#8 → destuff (b :: rest) = (b :: (destuff rest).1, (destuff rest).2)) ∧
  (∀ (s : State) (x : Byte), exec (.dsLone x) s = .next (returned s (.unit [0x7D#8] 1 false))) ∧
  (∀ s : State, exec .dsTail s = .next (returned s (.unit [0x7D#8] 1 true))) ∧
  (∀ (s : State) (b : Byte), exec (.dsOther b) s = .next (returned s (.unit [b] 1 false))) ∧
  destuff [0x7D#8, 0x41#8] = ([0x7D#8, 0x41#8], false) ∧ destuff [0x7D#8, 0x7D#8, 0x5E#8] = ([0x7D#8, 0x7E#8], false) ∧
  destuff [0x41#8, 0x7D#8] = ([0x41#8, 0x7D#8], true) ∧ destuff [0x7D#8, 0x7D#8] = ([0x7D#8, 0x7D#8], true) ∧
  destuff [0x41#8, 0x7D#8, 0x5D#8] = ([0x41#8, 0x7D#8], false) ∧ destuff [0x7E#8] = ([0x7E#8], false)

/-- The in-place law, which R116 marks as derived: the loop run over one memory, writing over its input, ends with the same
bytes and the same flag, and its write index ends at most `n`. -/
def Obligations.DestuffInPlace : Prop :=
  ∀ data : Bytes,
    let r := inPlaceLoop data.length data.length 0 0 data false
    (r.1.take r.2.1, r.2.2) = destuff data ∧ r.2.1 ≤ data.length

/-- The round trip, which R117 marks as derived, through the two operations: what STUFF returns, DESTUFF turns back, not
malformed. -/
def Obligations.StuffDestuffRoundTrip : Prop :=
  ∀ (x : Bytes) (s : State), ∃ y : Bytes,
    exec (.stuff x) s = .next (returned s (.bytes y)) ∧
    exec (.destuff y) s = .next (returned s (.destuffed x false))

/-- The converse fails, as R118 (marked derived) says: re-stuffing need not give the input back, and two inputs can de-stuff to
the same bytes. -/
def Obligations.DestuffLosesInformation : Prop :=
  destuff [0x7D#8, 0x41#8] = ([0x7D#8, 0x41#8], false) ∧
  Machine.stuff [0x7D#8, 0x41#8] = [0x7D#8, 0x5D#8, 0x41#8] ∧
  destuff [0x7D#8, 0x5D#8] = ([0x7D#8], false) ∧ destuff [0x7D#8] = ([0x7D#8], true)

/-- The stuffer and de-stuffer rows of 30_encoding.md Part 1 (R69's table): which row each input selects, and what each row
emits, consumes and marks. That a row runs alone, and the `.unit` form of its result, is the model's own choice (log entry 5). -/
def Obligations.StufferAndDestufferRows : Prop :=
  txDecode 0x7E#8 = .txFlag ∧ txDecode 0x7D#8 = .txEsc ∧
  (∀ v : Byte, v ≠ 0x7E#8 → v ≠ 0x7D#8 → txDecode v = .txOther v) ∧
  dsDecode 0x7D#8 (some 0x5E#8) = .dsFlag ∧ dsDecode 0x7D#8 (some 0x5D#8) = .dsEsc ∧
  (∀ x : Byte, x ≠ 0x5E#8 → x ≠ 0x5D#8 → dsDecode 0x7D#8 (some x) = .dsLone x) ∧
  dsDecode 0x7D#8 none = .dsTail ∧
  (∀ (v : Byte) (next : Option Byte), v ≠ 0x7D#8 → dsDecode v next = .dsOther v) ∧
  (∀ s : State, exec .txFlag s = .next (returned s (.unit [0x7D#8, 0x5E#8] 1 false))) ∧
  (∀ s : State, exec .txEsc s = .next (returned s (.unit [0x7D#8, 0x5D#8] 1 false))) ∧
  (∀ (s : State) (v : Byte), exec (.txOther v) s = .next (returned s (.unit [v] 1 false))) ∧
  (∀ s : State, exec .dsFlag s = .next (returned s (.unit [0x7E#8] 2 false))) ∧
  (∀ s : State, exec .dsEsc s = .next (returned s (.unit [0x7D#8] 2 false))) ∧
  (∀ (s : State) (x : Byte), exec (.dsLone x) s = .next (returned s (.unit [0x7D#8] 1 false))) ∧
  (∀ s : State, exec .dsTail s = .next (returned s (.unit [0x7D#8] 1 true))) ∧
  (∀ (s : State) (v : Byte), exec (.dsOther v) s = .next (returned s (.unit [v] 1 false)))

/-! ### spec/42_encoder.md -/

/-- R131: the domain check is the encoder's own and comes first, and the address byte of an id in the domain, with the rule's
examples. -/
def Obligations.EncodeAddress : Prop :=
  (∀ (s : State) (id : Nat) (t : Byte) (p : Bytes), 64 ≤ id →
    exec (.encode id t p) s = .next (returned s (.error .invalidAddress))) ∧
  (∀ (s : State) (id : Nat) (t : Byte) (p : Bytes), id ≤ 63 →
    exec (.encode id t p) s ≠ .next (returned s (.error .invalidAddress))) ∧
  (∀ id : Nat, id ≤ 62 → addressByte id = BitVec.ofNat 8 ((id <<< 2) ||| 1)) ∧
  addressByte 63 = 0xFF#8 ∧ addressByte 5 = 0x15#8 ∧ addressByte 1 = 0x05#8

/-- 30_encoding.md R63's bit fields, and its last paragraph, which it marks as derived: an address byte is 1 modulo 4 or 0xFF,
never FLAG, and distinct ids have distinct bytes. -/
def Obligations.AddressByteForm : Prop :=
  (∀ id : Nat, id ≤ 62 → addressByte id = (BitVec.ofNat 6 id ++ 0b01#2 : BitVec 8) ∧ (addressByte id).toNat ≤ 0xF9) ∧
  (∀ id : Nat, id ≤ 63 → ((addressByte id).toNat % 4 = 1 ∨ addressByte id = 0xFF#8) ∧ addressByte id ≠ FLAG) ∧
  (∀ i j : Nat, i ≤ 63 → j ≤ 63 → addressByte i = addressByte j → i = j) ∧
  addressByte 31 = ESCAPE

/-- R130: ENCODE's result on every operand it accepts (so step 5's fault is never reached), its errors, its record, the address
bytes of ids 63 and 31, and its example under the test instantiation. -/
def Obligations.EncodeOperation : Prop :=
  (∀ (s : State) (id : Nat) (t : Byte) (p : Bytes), id ≤ 63 → 4 + p.length + 2 ≤ s.cfg.maxRawFrame →
    exec (.encode id t p) s = .next (returned s (.bytes (wire s.cfg id t p)))) ∧
  (∀ (s : State) (id : Nat) (t : Byte) (p : Bytes), 64 ≤ id →
    exec (.encode id t p) s = .next (returned s (.error .invalidAddress))) ∧
  (∀ (s : State) (id : Nat) (t : Byte) (p : Bytes), id ≤ 63 → s.cfg.maxRawFrame < 4 + p.length + 2 →
    exec (.encode id t p) s = .next (returned s (.error .frameTooLarge))) ∧
  (∀ (id : Nat) (t : Byte) (p : Bytes), id < 256 → p.length < 2 ^ 32 →
    decodeRecord ([0x05#8, BitVec.ofNat 8 id, t] ++ counted p) = .ok (.encode id t p)) ∧
  addr 63 = 0xFF#8 ∧ addr 31 = 0x7D#8 ∧ stuffOne (addr 31) = [0x7D#8, 0x5D#8] ∧
  (∀ s : State, s.cfg = testConfig →
    exec (.encode 1 0x13#8 [0x01#8, 0x02#8, 0x03#8]) s = .next (returned s (.bytes E1)))

/-- 60_exceptions.md R203: the first cause that applies is the one reported: the address, then the ceiling (which counts header,
payload and FCS), and otherwise the frame, for the self-check's fault never comes. By default 250 payload bytes are accepted and
251 are not; id 64 with a 300-byte payload is InvalidAddress. -/
def Obligations.EncodeCheckOrder : Prop :=
  (∀ (s : State) (id : Nat) (t : Byte) (p : Bytes),
    exec (.encode id t p) s = .next (returned s (.error .invalidAddress)) ↔ 63 < id) ∧
  (∀ (s : State) (id : Nat) (t : Byte) (p : Bytes),
    exec (.encode id t p) s = .next (returned s (.error .frameTooLarge)) ↔
      id ≤ 63 ∧ HEADER_LEN + p.length + FCS_LEN > s.cfg.maxRawFrame) ∧
  (∀ (s : State) (id : Nat) (t : Byte) (p : Bytes),
    (∃ w : Bytes, exec (.encode id t p) s = .next (returned s (.bytes w))) ↔
      id ≤ 63 ∧ HEADER_LEN + p.length + FCS_LEN ≤ s.cfg.maxRawFrame) ∧
  (∀ (s : State) (id : Nat) (t : Byte) (p : Bytes), s.cfg.maxRawFrame = Config.hardware.maxRawFrame → id ≤ 63 →
    ((∃ w : Bytes, exec (.encode id t p) s = .next (returned s (.bytes w))) ↔ p.length ≤ 250)) ∧
  (∀ (s : State) (t : Byte) (p : Bytes), p.length = 300 →
    exec (.encode 64 t p) s = .next (returned s (.error .invalidAddress)))

/-- The output properties that R138 marks as derived, items 1 to 4: FLAG stands at the two ends only, the length bounds, what
the interior de-stuffs to and checks to, and that the result is a function of the operands and the parameters. -/
def Obligations.EncodeOutputProperties : Prop :=
  ∀ (s : State) (id : Nat) (t : Byte) (p w : Bytes), exec (.encode id t p) s = .next (returned s (.bytes w)) →
    (∃ m : Bytes, w = FLAG :: m ++ [FLAG] ∧ FLAG ∉ m ∧ destuff m = (SpecText.raw s.cfg id t p, false)) ∧
    frameCheck (SpecText.raw s.cfg id t p) = true ∧
    (p.length + 6) + 2 ≤ w.length ∧ w.length ≤ 2 * (p.length + 6) + 2 ∧
    (∀ s' : State, s'.cfg = s.cfg → exec (.encode id t p) s' = .next (returned s' (.bytes w)))

/-- The round trip of 42_encoder.md R138 item 5 and 44_validator.md R185 item 1 (both marked derived): what ENCODE returns,
VALIDATE accepts, and gives back header and payload. -/
def Obligations.EncodeThenValidate : Prop :=
  ∀ (s s' : State) (id : Nat) (t : Byte) (p : Bytes), id ≤ 63 → 4 + p.length + 2 ≤ s.cfg.maxRawFrame →
    ∃ w : Bytes, exec (.encode id t p) s = .next (returned s (.bytes w)) ∧
      exec (.validate w) s' = .next (returned s' (.bytes (SpecText.body s.cfg id t p)))

/-! ### spec/43_stream_decoder.md: the rows -/

/-- R151: what byte `b` does at a full buffer, whatever `b` and `st` are, under both settings of the parameter, as the row RX_OVF
alone and at the head of a FEED's chunk. With the parameter false the byte is processed from the reset state. With room left
there is no overflow, and a byte in `Payload` that completes a frame of exactly `BUF_CAP` stored bytes emits it. -/
def Obligations.RxOverflow : Prop :=
  (∀ (s : State) (d : Nat) (D : Decoder) (b : Byte), Ready s d D → D.buf.length < s.cfg.bufCap →
    exec (.feed d [b]) s =
      .next (served s d (SpecText.rxByte D b []).1 (.frames (SpecText.rxByte D b []).2 false))) ∧
  (∀ (s : State) (d : Nat) (D : Decoder), Ready s d D → D.st = .payload → D.esc = false →
    D.buf.length + 1 = s.cfg.bufCap →
    exec (.feed d [0x7E#8]) s = .next (served s d afterFrame (.frames [D.buf ++ [0x7E#8]] false))) ∧
  ∀ (s : State) (d : Nat) (D : Decoder) (b : Byte) (rest : Bytes), Ready s d D → D.buf.length ≥ s.cfg.bufCap →
    (s.cfg.overflowDropsRestOfChunk = true →
      exec (.rxOvf d b) s = .next (served s d fresh (.frames [] true)) ∧
      exec (.feed d (b :: rest)) s = .next (served s d fresh (.frames [] true))) ∧
    (s.cfg.overflowDropsRestOfChunk = false →
      exec (.rxOvf d b) s = .next (served s d (SpecText.rxByte fresh b []).1 (.frames [] true)) ∧
      ∃ (D' : Decoder) (fs : List Bytes) (ov : Bool),
        exec (.feed d rest) (s.setDecoder d (SpecText.rxByte fresh b []).1) = .next (served s d D' (.frames fs ov)) ∧
        exec (.feed d (b :: rest)) s = .next (served s d D' (.frames fs true)))

/-- R153 with R152's append: an ESCAPE is stored whatever `st` and `esc` are, and re-arms; after it, the next byte other than
ESCAPE is stored as data, even a FLAG. -/
def Obligations.RxEscapeByte : Prop :=
  ∀ (s : State) (d : Nat) (D : Decoder), Ready s d D → D.buf.length < s.cfg.bufCap →
    exec (.rxEsc d) s = .next (served s d { D with buf := D.buf ++ [0x7D#8], esc := true } (.frames [] false)) ∧
    exec (.feed d [0x7D#8]) s = .next (served s d { D with buf := D.buf ++ [0x7D#8], esc := true } (.frames [] false)) ∧
    (D.buf.length + 1 < s.cfg.bufCap → ∀ b : Byte, b ≠ 0x7D#8 →
      exec (.feed d [0x7D#8, b]) s =
        .next (served s d { D with buf := D.buf ++ [0x7D#8, b], esc := false } (.frames [] false)))

/-- R154: with escape pending, any byte other than ESCAPE is stored, the flag is cleared, and `st` stays. -/
def Obligations.RxEscapedByte : Prop :=
  ∀ (s : State) (d : Nat) (D : Decoder) (b : Byte), Ready s d D → D.buf.length < s.cfg.bufCap → D.esc = true →
    b ≠ 0x7D#8 →
    exec (.rxEscd d b) s = .next (served s d { D with buf := D.buf ++ [b], esc := false } (.frames [] false)) ∧
    exec (.feed d [b]) s = .next (served s d { D with buf := D.buf ++ [b], esc := false } (.frames [] false))

/-- R155: the two rows of `Idle`; an ordinary byte is dropped and nothing changes. -/
def Obligations.RxIdleRows : Prop :=
  ∀ (s : State) (d : Nat) (D : Decoder), Ready s d D → D.buf.length < s.cfg.bufCap → D.esc = false → D.st = .idle →
    exec (.rxIdleF d) s = .next (served s d { D with buf := D.buf ++ [0x7E#8], st := .confirming } (.frames [] false)) ∧
    (∀ b : Byte, b ≠ 0x7E#8 → b ≠ 0x7D#8 → exec (.rxIdleO d b) s = .next (served s d D (.frames [] false)))

/-- R156: the three rows of `Confirming`, and that only RX_PAY_F leaves an instance there with an empty buffer. -/
def Obligations.RxConfirmingRows : Prop :=
  (∀ (cfg : Config) (D : Decoder) (b : Byte), (rxStep cfg D b).dec.st = .confirming → (rxStep cfg D b).dec.buf = [] →
    rxRowOf cfg D b = .payF) ∧
  ∀ (s : State) (d : Nat) (D : Decoder), Ready s d D → D.buf.length < s.cfg.bufCap → D.esc = false →
    D.st = .confirming →
    (D.buf.length = 0 →
      exec (.rxCfmgF0 d) s = .next (served s d { D with buf := D.buf ++ [0x7E#8], st := .confirmed } (.frames [] false))) ∧
    (D.buf.length > 0 → exec (.rxCfmgF1 d) s = .next (served s d { D with st := .confirmed } (.frames [] false))) ∧
    (∀ b : Byte, b ≠ 0x7E#8 → b ≠ 0x7D#8 →
      exec (.rxCfmgO d b) s = .next (served s d { D with buf := [], st := .idle } (.frames [] false)))

/-- R157: the two rows of `Confirmed`; a redundant FLAG is stored. -/
def Obligations.RxConfirmedRows : Prop :=
  ∀ (s : State) (d : Nat) (D : Decoder), Ready s d D → D.buf.length < s.cfg.bufCap → D.esc = false →
    D.st = .confirmed →
    exec (.rxCfmdF d) s = .next (served s d { D with buf := D.buf ++ [0x7E#8] } (.frames [] false)) ∧
    (∀ b : Byte, b ≠ 0x7E#8 → b ≠ 0x7D#8 →
      exec (.rxCfmdO d b) s = .next (served s d { D with buf := D.buf ++ [b], st := .payload } (.frames [] false)))

/-- R158: the two rows of `Payload`; the terminating FLAG is stored, and the whole buffer is emitted. -/
def Obligations.RxPayloadRows : Prop :=
  ∀ (s : State) (d : Nat) (D : Decoder), Ready s d D → D.buf.length < s.cfg.bufCap → D.esc = false → D.st = .payload →
    exec (.rxPayF d) s =
      .next (served s d { D with buf := [], st := .confirming } (.frames [D.buf ++ [0x7E#8]] false)) ∧
    (∀ b : Byte, b ≠ 0x7E#8 → b ≠ 0x7D#8 →
      exec (.rxPayO d b) s = .next (served s d { D with buf := D.buf ++ [b] } (.frames [] false)))

/-- The row table of 30_encoding.md R68: the row a byte selects is the one whose condition holds, and there is exactly one
(R68 marks this as derived). A row that is not selected is refused (the model's own choice, log entry 5). -/
def Obligations.RowSelection : Prop :=
  (∀ (cfg : Config) (D : Decoder) (b : Byte) (row : RxRow), rxRowOf cfg D b = row ↔ RowCondition cfg D b row) ∧
  (∀ (cfg : Config) (D : Decoder) (b : Byte), ∃! row : RxRow, RowCondition cfg D b row) ∧
  (∀ (s : State) (d : Nat) (D : Decoder) (b : Byte) (row : RxRow), Ready s d D → (rxInstr row d b).wellFormed = true →
    encode (rxInstr row d b) = .rxByte d b → ¬ RowCondition s.cfg D b row →
    exec (rxInstr row d b) s = .refused (.rowNotSelected row))

/-- 43_stream_decoder.md section 1 and 30_encoding.md Part 1: a FEED of one byte is the row that byte selects, run alone. -/
def Obligations.RowIsOneByteFeed : Prop :=
  ∀ (s : State) (d : Nat) (D : Decoder) (b : Byte), Ready s d D →
    exec (rxInstr (rxRowOf s.cfg D b) d b) s = exec (.feed d [b]) s

/-- What the storing, keeping and clearing rows leave of the buffer, read byte by byte, and which registers each leaves: bytes
below the cursor are unchanged by a storing row, whose one byte goes to the cursor's index; RX_IDLE_O and RX_CFMG_F1 leave
every byte; RX_OVF (dropping), RX_CFMG_O and RX_PAY_F leave none; `st` and `esc` change only where R151 to R158 say. -/
def Obligations.RowFrame : Prop :=
  ∀ (cfg : Config) (D : Decoder) (b : Byte) (row : RxRow), rxRowOf cfg D b = row → row ≠ .ovf →
    let D' := (rxStep cfg D b).dec
    (row ∈ [.esc, .escd, .idleF, .cfmgF0, .cfmdF, .cfmdO, .payO] →
      D'.cursor = D.cursor + 1 ∧ memRead D'.buf D.cursor = some b ∧
      ∀ i : Nat, i ≠ D.cursor → memRead D'.buf i = memRead D.buf i) ∧
    (row ∈ [.idleO, .cfmgF1] → ∀ i : Nat, memRead D'.buf i = memRead D.buf i) ∧
    (row ∈ [.cfmgO, .payF] → ∀ i : Nat, memRead D'.buf i = none) ∧
    (row ∈ [.esc, .escd, .idleO, .cfmdF, .payO] → D'.st = D.st) ∧
    (row ∉ [.esc, .escd] → D'.esc = D.esc) ∧
    (row ≠ .payF → (rxStep cfg D b).frames = [])

/-! ### spec/43_stream_decoder.md: FEED and the decoder's laws -/

/-- R150, with R159 and R160: FEED is the loop the rule gives, its record, its empty chunk, that a full buffer costs the whole
chunk, and its example. -/
def Obligations.FeedOperation : Prop :=
  (∀ (s : State) (d : Nat) (D : Decoder) (chunk : Bytes), Ready s d D →
    let r := SpecText.feed s.cfg D chunk
    exec (.feed d chunk) s = .next (served s d r.1 (.frames r.2.1 r.2.2))) ∧
  (∀ (d : Nat) (chunk : Bytes), d < 256 → chunk.length < 2 ^ 32 →
    decodeRecord ([0x07#8, BitVec.ofNat 8 d] ++ counted chunk) = .ok (.feed d chunk)) ∧
  (∀ (s : State) (d : Nat) (D : Decoder), Ready s d D → exec (.feed d []) s = .next (returned s (.frames [] false))) ∧
  (∀ (s : State) (d : Nat) (D : Decoder) (b : Byte) (rest : Bytes), Ready s d D → D.buf.length ≥ s.cfg.bufCap →
    s.cfg.overflowDropsRestOfChunk = true →
    exec (.feed d (b :: rest)) s = .next (served s d fresh (.frames [] true))) ∧
  (∀ (s : State) (chunk : Bytes) (d : Nat), s.decoders[d]? = none →
    exec (.feed d chunk) s = .refused (.noSuchInstance d)) ∧
  (∀ (s : State) (D : Decoder) (chunk : Bytes) (d : Nat), s.decoders[d]? = some D → (∃ o ∈ s.inFlight, o.d = d) →
    exec (.feed d chunk) s = .fault (.reentrantFeed d)) ∧
  (∀ s : State, s.cfg = testConfig → Ready s 0 fresh →
    exec (.feed 0 (0x7E#8 :: E1)) s = .next (served s 0 afterFrame (.frames [E1] false)))

/-- Streaming equivalence, which R161 marks as derived: without an overflow, or with the parameter false, one FEED of the whole
stream and FEEDs of its pieces give the same frames in order, the same overflow and the same instance state. -/
def Obligations.StreamingEquivalence : Prop :=
  ∀ (s : State) (d : Nat) (D : Decoder) (chunks : List Bytes), Ready s d D →
    (s.cfg.overflowDropsRestOfChunk = false ∨ (SpecText.feed s.cfg D chunks.flatten).2.2 = false) →
    ∃ (D' : Decoder) (results : List (List Bytes × Bool)),
      results.length = chunks.length ∧
      exec (.feed d chunks.flatten) s =
        .next (served s d D' (.frames (results.map Prod.fst).flatten (results.any Prod.snd))) ∧
      runAll (chunks.map (Instr.feed d)) s =
        .next { s with decoders := s.decoders.set d D', outbox := s.outbox ++ results.map (fun r => .frames r.1 r.2) }

/-- The first frame of a fresh stream is lost, as R162 and 70_reset_and_hazards.md R238 (marked derived) say: one encoder frame
fed to an instance in reset state emits no frame. -/
def Obligations.FirstFrameIsLost : Prop :=
  ∀ (s : State) (d id : Nat) (t : Byte) (p : Bytes), Ready s d fresh → Encodable s.cfg id p →
    ∃ (D' : Decoder) (overflow : Bool), exec (.feed d (wire s.cfg id t p)) s = .next (served s d D' (.frames [] overflow))

/-- Back-to-back encoder frames, which R163 marks as derived: from the state after a frame, or from reset after one extra FLAG,
exactly the frames fed are emitted, byte for byte. R163 leaves the buffer's capacity unsaid; each frame must fit it. -/
def Obligations.BackToBackFrames : Prop :=
  ∀ (s : State) (d : Nat) (ops : List (Nat × Byte × Bytes)),
    (∀ o ∈ ops, Encodable s.cfg o.1 o.2.2 ∧ HasOrdinaryByte (SpecText.raw s.cfg o.1 o.2.1 o.2.2) ∧
      (wire s.cfg o.1 o.2.1 o.2.2).length ≤ s.cfg.bufCap) →
    let ws := ops.map (fun o => wire s.cfg o.1 o.2.1 o.2.2)
    (Ready s d afterFrame → exec (.feed d ws.flatten) s = .next (served s d afterFrame (.frames ws false))) ∧
    (Ready s d fresh → ops ≠ [] →
      exec (.feed d (0x7E#8 :: ws.flatten)) s = .next (served s d afterFrame (.frames ws false)))

/-- The lost first frame's escape pairs, as R163's last paragraph and 70_reset_and_hazards.md R240 (marked derived) say: fed
from reset, of `w1, w2` only one frame comes out, and it is the reserved bytes of `w1` after its first ordinary one, stuffed,
then FLAG and `w2` without its leading FLAG. It is `w2` itself when there are none. -/
def Obligations.LostFrameEscapePairs : Prop :=
  ∀ (s : State) (d : Nat) (id1 id2 : Nat) (t1 t2 : Byte) (p1 p2 e u : Bytes) (x : Byte),
    Ready s d fresh → Encodable s.cfg id1 p1 → Encodable s.cfg id2 p2 →
    SpecText.raw s.cfg id1 t1 p1 = e ++ x :: u → (∀ b ∈ e, b = FLAG ∨ b = ESCAPE) → x ≠ FLAG → x ≠ ESCAPE →
    HasOrdinaryByte (SpecText.raw s.cfg id2 t2 p2) →
    (wire s.cfg id1 t1 p1).length + (wire s.cfg id2 t2 p2).length ≤ s.cfg.bufCap →
    let pairs := (u.filter (fun b => b == FLAG || b == ESCAPE)).flatMap stuffOne
    exec (.feed d (wire s.cfg id1 t1 p1 ++ wire s.cfg id2 t2 p2)) s =
      .next (served s d afterFrame (.frames [pairs ++ [FLAG] ++ (wire s.cfg id2 t2 p2).drop 1] false))

/-- The shape of every emitted frame, which R164 marks as derived: its length bounds, its last two bytes, its first byte, and
that the validator never meets a trailing escape in it. -/
def Obligations.DecoderFrameShape : Prop :=
  ∀ (s t : State) (d : Nat) (D : Decoder) (chunk : Bytes) (fs : List Bytes) (overflow : Bool) (f : Bytes),
    s.wf = true → Ready s d D → exec (.feed d chunk) s = .next t → t.outbox = s.outbox ++ [.frames fs overflow] → f ∈ fs →
    3 ≤ f.length ∧ f.length ≤ s.cfg.bufCap ∧
    (∃ (g : Bytes) (x : Byte), f = g ++ [x, FLAG] ∧ x ≠ ESCAPE) ∧
    (f.head? = some FLAG ∨ f.head? = some ESCAPE) ∧
    (destuff (stripFlags f)).2 = false

/-- Overflow containment, which R165 marks as derived: with the reference setting, a FEED that overflows leaves its instance in
the reset state, and a later FEED of `[7E] ++ w` emits `w`. -/
def Obligations.OverflowContainment : Prop :=
  ∀ (s t : State) (d : Nat) (D : Decoder) (chunk : Bytes) (fs : List Bytes) (id : Nat) (ty : Byte) (p : Bytes),
    s.cfg.overflowDropsRestOfChunk = true → Ready s d D → exec (.feed d chunk) s = .next t →
    t.outbox = s.outbox ++ [.frames fs true] →
    Encodable s.cfg id p → HasOrdinaryByte (SpecText.raw s.cfg id ty p) → (wire s.cfg id ty p).length ≤ s.cfg.bufCap →
    t.decoders[d]? = some fresh ∧
    exec (.feed d (0x7E#8 :: wire s.cfg id ty p)) t = .next (served t d afterFrame (.frames [wire s.cfg id ty p] false))

/-! ### spec/44_validator.md -/

/-- R180's pseudocode with R181's strip: VALIDATE's result in every state, its record, its corner cases and its example under the
test instantiation. An encoder frame with one to eight further leading FLAGs fails (R180 says "several"; NOTES.md says why the
number is bounded here). -/
def Obligations.ValidateOperation : Prop :=
  (∀ (s : State) (frame : Bytes), exec (.validate frame) s =
    .next (returned s (match SpecText.validate frame with
      | some b => .bytes b
      | none => .error .badFcs))) ∧
  (∀ frame : Bytes, frame.length < 2 ^ 32 → decodeRecord ([0x08#8] ++ counted frame) = .ok (.validate frame)) ∧
  (∀ f : Bytes, f.head? ≠ some 0x7E#8 → f.getLast? ≠ some 0x7E#8 →
    SpecText.strip f = f ∧ SpecText.strip (0x7E#8 :: f) = f ∧ SpecText.strip (f ++ [0x7E#8]) = f ∧
    SpecText.strip (0x7E#8 :: f ++ [0x7E#8]) = f ∧
    ∀ m n : Nat, SpecText.strip (List.replicate (m + 1) 0x7E#8 ++ (f ++ List.replicate (n + 1) 0x7E#8)) =
      if f = [] then List.replicate (m + n) 0x7E#8 else List.replicate m 0x7E#8 ++ (f ++ List.replicate n 0x7E#8)) ∧
  (∀ (s : State) (cfg : Config) (id : Nat) (t : Byte) (p : Bytes) (k : Nat), Encodable cfg id p → 1 ≤ k → k ≤ 8 →
    exec (.validate (List.replicate k 0x7E#8 ++ wire cfg id t p)) s = .next (returned s (.error .badFcs))) ∧
  SpecText.validate [] = none ∧ SpecText.validate [0x7E#8] = none ∧ SpecText.validate [0x7E#8, 0x7E#8] = none ∧
  SpecText.validate [0x7E#8, 0x00#8, 0x00#8, 0x7E#8] = some [] ∧
  SpecText.validate E1 = some [0x05#8, 0x03#8, 0x00#8, 0x13#8, 0x01#8, 0x02#8, 0x03#8]

/-- The delimiter form does not matter, as R185 item 2 (marked derived) says: an encoder frame with both FLAGs, with either, and
with neither gives one result. -/
def Obligations.ValidateDelimiterForms : Prop :=
  ∀ (s : State) (cfg : Config) (id : Nat) (t : Byte) (p : Bytes), Encodable cfg id p →
    let w := wire cfg id t p
    ∀ v ∈ [w, (w.drop 1).dropLast, w.drop 1, w.dropLast],
      exec (.validate v) s = .next (returned s (.bytes (SpecText.body cfg id t p)))

/-- Corruption rejection, R185 item 3 (the spec checks it on two frames and calls the general fact general knowledge): any one
byte of an encoded frame's raw bytes replaced by any other value, and the frame re-stuffed, is BadFcs. -/
def Obligations.ValidateRejectsByteChange : Prop :=
  ∀ (s : State) (cfg : Config) (id : Nat) (t : Byte) (p a b : Bytes) (x y : Byte), Encodable cfg id p →
    SpecText.raw cfg id t p = a ++ x :: b → x ≠ y →
    exec (.validate ([0x7E#8] ++ (a ++ y :: b).flatMap stuffOne ++ [0x7E#8])) s =
      .next (returned s (.error .badFcs))

/-- R190: PARSE_HEADER's result in every state, its record, its corner case and its examples. -/
def Obligations.ParseHeaderOperation : Prop :=
  (∀ (s : State) (body : Bytes), body.length < 4 →
    exec (.parseHeader body) s = .next (returned s (.error .truncatedFrame))) ∧
  (∀ (s : State) (body : Bytes), 4 ≤ body.length →
    exec (.parseHeader body) s = .next (returned s
      (.header (body.getD 0 0) (body.getD 1 0) (body.getD 2 0) (body.getD 3 0) (body.drop 4)))) ∧
  (∀ body : Bytes, body.length < 2 ^ 32 → decodeRecord ([0x09#8] ++ counted body) = .ok (.parseHeader body)) ∧
  (∀ (s : State) (a c i t : Byte), exec (.parseHeader [a, c, i, t]) s = .next (returned s (.header a c i t []))) ∧
  (∀ s : State, exec (.parseHeader [0x05#8, 0x03#8, 0x00#8, 0x13#8, 0x01#8, 0x02#8, 0x03#8]) s =
    .next (returned s (.header 0x05#8 0x03#8 0x00#8 0x13#8 [0x01#8, 0x02#8, 0x03#8]))) ∧
  (∀ s : State, exec (.parseHeader []) s = .next (returned s (.error .truncatedFrame)))

/-- The whole pipeline (44_validator.md section 2; the corrected end-to-end scenario of 90_conflicts.md C2): what ENCODE
returns, fed in any pieces after one extra FLAG to a reset instance, is emitted once, validates, and parses to the encoder's
operands. -/
def Obligations.EndToEnd : Prop :=
  ∀ (s : State) (d id : Nat) (t : Byte) (p : Bytes) (chunks : List Bytes), Ready s d fresh → Encodable s.cfg id p →
    HasOrdinaryByte (SpecText.raw s.cfg id t p) → (wire s.cfg id t p).length ≤ s.cfg.bufCap →
    chunks.flatten = 0x7E#8 :: wire s.cfg id t p →
    exec (.encode id t p) s = .next (returned s (.bytes (wire s.cfg id t p))) ∧
    (∃ (u : State) (results : List (List Bytes)),
      runAll (chunks.map (Instr.feed d)) s = .next u ∧
      u.outbox = s.outbox ++ results.map (fun fs => .frames fs false) ∧ results.flatten = [wire s.cfg id t p] ∧
      u.decoders = s.decoders.set d afterFrame) ∧
    exec (.validate (wire s.cfg id t p)) s = .next (returned s (.bytes (SpecText.body s.cfg id t p))) ∧
    exec (.parseHeader (SpecText.body s.cfg id t p)) s =
      .next (returned s (.header (addr id) s.cfg.controlConst s.cfg.protocolIdConst t p))

/-! ### spec/70_reset_and_hazards.md and spec/10_state.md -/

/-- R230: DEC_RESET's effect, its record, that a reset instance is unchanged by it, that other instances are untouched, and its
example. -/
def Obligations.DecResetOperation : Prop :=
  (∀ (s : State) (d : Nat) (D : Decoder), Ready s d D → exec (.decReset d) s = .next (served s d fresh .done)) ∧
  (∀ d : Nat, d < 256 → decodeRecord [0x06#8, BitVec.ofNat 8 d] = .ok (.decReset d)) ∧
  (∀ (s : State) (d : Nat), Ready s d fresh → exec (.decReset d) s = .next (returned s .done)) ∧
  (∀ (s : State) (d e : Nat) (D : Decoder), Ready s d D → e ≠ d →
    ∃ t : State, exec (.decReset d) s = .next t ∧ t.decoders[e]? = s.decoders[e]?) ∧
  (∀ (s : State) (d : Nat), s.decoders[d]? = none → exec (.decReset d) s = .refused (.noSuchInstance d)) ∧
  (∀ (s : State) (d : Nat), Ready s d fresh → 3 ≤ s.cfg.bufCap →
    exec (.feed d [0x7E#8, 0x7E#8, 0x41#8]) s =
      .next (served s d { st := .payload, buf := [0x7E#8, 0x41#8], esc := false } (.frames [] false)) ∧
    ∃ t : State, runAll [.feed d [0x7E#8, 0x7E#8, 0x41#8], .decReset d] s = .next t ∧ t.decoders[d]? = some fresh)

/-- 10_state.md R30: the values of a reset instance, at the start, after DEC_RESET and after an overflow. -/
def Obligations.ResetValues : Prop :=
  (∀ (d : Nat) (D : Decoder), State.reset.decoders[d]? = some D →
    D.st = .idle ∧ D.buf = [] ∧ D.cursor = 0 ∧ D.esc = false) ∧
  (∀ d : Nat, d < State.reset.cfg.nDecoders ↔ (State.reset.decoders[d]?).isSome = true) ∧
  (∀ (s t : State) (d : Nat), exec (.decReset d) s = .next t →
    ∃ D : Decoder, t.decoders[d]? = some D ∧ D.st = .idle ∧ D.buf = [] ∧ D.cursor = 0 ∧ D.esc = false) ∧
  (∀ (cfg : Config) (D : Decoder) (b : Byte), cfg.overflowDropsRestOfChunk = true → D.buf.length ≥ cfg.bufCap →
    (rxStep cfg D b).dec.st = .idle ∧ (rxStep cfg D b).dec.buf = [] ∧ (rxStep cfg D b).dec.cursor = 0 ∧
      (rxStep cfg D b).dec.esc = false)

/-- The start of a run is a well-formed state: 00_scope.md R9, 10_state.md R22. (That no FEED is open then is the model's own
choice, log entry 4.) -/
def Obligations.ResetIsWellFormed : Prop := State.reset.wf = true

/-- The invariants of R22, which it marks as derived, with the parameter constraints of 00_scope.md R9 and the model's own
well-formedness of the open FEEDs (log entry 4): every step keeps them, whatever the host asks. -/
def Obligations.StepKeepsWellFormed : Prop :=
  ∀ s t : State, s.wf = true → Machine.step s = .next t → t.wf = true

/-- 10_state.md R23: the parameters are hardwired. No step writes them, and none changes the number of instances. -/
def Obligations.StepKeepsParameters : Prop :=
  ∀ s t : State, Machine.step s = .next t → t.cfg = s.cfg ∧ t.decoders.length = s.decoders.length

/-! ### spec/20_memory.md: side effects and ordering -/

/-- 20_memory.md sections 3 and 4: every operation and row that names no instance completes in every state, touches nothing but
its result, and has a result that depends on its operands and the parameters alone. -/
def Obligations.PureOperations : Prop :=
  ∀ (cfg : Config) (i : Instr), instanceOf i = none →
    ∃ r : Response, ∀ s : State, s.cfg = cfg → exec i s = .next (returned s r)

/-- 20_memory.md section 3: an operation or row that names an instance touches that instance and its result, and nothing else:
every other instance, every byte of its buffer, the parameters, the open FEEDs and the pending requests stay. -/
def Obligations.InstanceFrame : Prop :=
  ∀ (s t : State) (i : Instr) (d : Nat), instanceOf i = some d → exec i s = .next t →
    ∃ (D' : Decoder) (r : Response), t = served s d D' r ∧
      (∀ e : Nat, e ≠ d → t.decoders[e]? = s.decoders[e]?) ∧
      (∀ (e : Nat) (D E : Decoder), e ≠ d → s.decoders[e]? = some D → t.decoders[e]? = some E →
        ∀ a : Nat, memRead E.buf a = memRead D.buf a)

/-- Operations on different instances commute, and pure operations commute with every operation (20_memory.md section 4;
60_exceptions.md section 5): both orders complete, end in the same instances, and return the same results, in the order
issued. -/
def Obligations.OperationsCommute : Prop :=
  ∀ (s t u : State) (i j : Instr), (instanceOf i = none ∨ instanceOf i ≠ instanceOf j) →
    exec i s = .next t → exec j s = .next u →
    ∃ (v w : State) (ri rj : Response), exec j t = .next v ∧ exec i u = .next w ∧
      v.decoders = w.decoders ∧ v.outbox = s.outbox ++ [ri, rj] ∧ w.outbox = s.outbox ++ [rj, ri] ∧
      t.outbox = s.outbox ++ [ri] ∧ u.outbox = s.outbox ++ [rj]

/-! ### spec/60_exceptions.md and spec/30_encoding.md Part 2 -/

/-- R75 and R209: an unassigned code, an instance id that names no instance, and a record whose length disagrees with its length
fields are refused: there is no next state and no response. -/
def Obligations.IllFormedCommandsRefused : Prop :=
  (∀ (s : State) (code : Byte) (r : Bytes) (rest : List Request), s.inbox = .issue (.record (code :: r)) :: rest →
    (code = 0x00#8 ∨ 0x0A#8 ≤ code) → Machine.step s = .refused (.unassignedCode code)) ∧
  (∀ (s : State) (d : Nat), s.wf = true → s.cfg.nDecoders ≤ d →
    exec (.decReset d) s = .refused (.noSuchInstance d) ∧
    ∀ chunk : Bytes, exec (.feed d chunk) s = .refused (.noSuchInstance d)) ∧
  (∀ (s : State) (code a b : Byte) (n : Nat) (data : Bytes) (rest : List Request), n < 2 ^ 32 → data.length ≠ n →
    (s.inbox = .issue (.record ([0x02#8, a, b] ++ le32 n ++ data)) :: rest ∨
     s.inbox = .issue (.record ([0x05#8, a, b] ++ le32 n ++ data)) :: rest ∨
     s.inbox = .issue (.record ([0x07#8, a] ++ le32 n ++ data)) :: rest ∨
     (code ∈ [0x03#8, 0x04#8, 0x08#8, 0x09#8] ∧ s.inbox = .issue (.record ([code] ++ le32 n ++ data)) :: rest) ∨
     (data.length ≠ 3 ∧ s.inbox = .issue (.record ([0x01#8] ++ data)) :: rest) ∨
     (data.length ≠ 1 ∧ s.inbox = .issue (.record ([0x06#8] ++ data)) :: rest)) →
    Machine.step s = .refused .illFormedRecord) ∧
  (∀ (s : State) (r : Bytes) (rest : List Request), s.inbox = .issue (.record r) :: rest →
    (∀ i : Instr, i.wellFormed = true → encode i ≠ .record r) → (∀ c : Byte, r.head? = some c → 0x01#8 ≤ c ∧ c ≤ 0x09#8) →
    Machine.step s = .refused .illFormedRecord)

/-- The reentrancy fault of 60_exceptions.md (R208): a FEED or DEC_RESET on an instance whose earlier FEED has not completed is
the fault; a host that issues one operation at a time never opens a FEED; a second chunk, whatever stream it comes from, fed
after the first has completed is no fault. The last clause is about the model's own form of overlapping calls, a design choice
(log entry 4), as is the list of open FEEDs that every clause speaks of: an open FEED makes the fault reachable and, once
complete, has done what FEED does. -/
def Obligations.ReentrantFeedFaults : Prop :=
  (∀ (s : State) (d : Nat) (D : Decoder), s.decoders[d]? = some D → (∃ o ∈ s.inFlight, o.d = d) →
    exec (.decReset d) s = .fault (.reentrantFeed d) ∧
    ∀ chunk : Bytes, exec (.feed d chunk) s = .fault (.reentrantFeed d)) ∧
  (∀ (s t : State) (i : Instr), exec i s = .next t → t.inFlight = s.inFlight) ∧
  (∀ (s : State) (d : Nat) (D : Decoder) (chunk chunk' : Bytes), Ready s d D →
    ∃ t : State, runAll [.feed d chunk, .feed d chunk'] s = .next t) ∧
  (∀ (s : State) (d : Nat) (D : Decoder) (chunk : Bytes), Ready s d D →
    ∃ t : State, openFeed d chunk s = .next t ∧ t.outbox = s.outbox ∧
      (∀ chunk' : Bytes, exec (.feed d chunk') t = .fault (.reentrantFeed d)) ∧
      exec (.decReset d) t = .fault (.reentrantFeed d) ∧
      (∀ e : Nat, e ≠ d → t.isOpen e = s.isOpen e) ∧
      completeFeed d t = exec (.feed d chunk) s)

/-- 60_exceptions.md section 3: no instruction faults but with ReentrantFeed, and only one that names an instance with an open
FEED. ENCODE's self-check never fails (R206 marks its unreachability as derived). -/
def Obligations.FaultsOnlyWhenReentrant : Prop :=
  ∀ (s : State) (i : Instr) (f : Fault), exec i s = .fault f →
    ∃ d : Nat, f = .reentrantFeed d ∧ instanceOf i = some d ∧ ∃ o ∈ s.inFlight, o.d = d

/-- 30_encoding.md Part 2: every well-formed operation's record decodes to it, with every operand at every value the record
admits. -/
def Obligations.CommandRoundTrip : Prop :=
  ∀ i : Instr, i.isCommand = true → i.wellFormed = true →
    ∃ r : Bytes, encode i = .record r ∧ decodeRecord r = .ok i

/-- 30_encoding.md Part 2: a record that decodes is the record of what it decodes to, and that is a well-formed operation: no
two records mean the same operation. -/
def Obligations.DecodedRecordIsItsEncoding : Prop :=
  ∀ (r : Bytes) (i : Instr), decodeRecord r = .ok i → i.isCommand = true ∧ i.wellFormed = true ∧ encode i = .record r

/-- 30_encoding.md Part 1: a byte of a unit's input always decodes, to a well-formed row of which it is the encoding, and every
well-formed row is what its encoding decodes to, for a decoder row in some state of the instance. -/
def Obligations.ByteRowRoundTrip : Prop :=
  (∀ (c : RxContext) (d : Nat) (b : Byte), ∃ i : Instr, decodeFetch c (.rxByte d b) = .ok i ∧ i.isCommand = false ∧
    i.wellFormed = true ∧ encode i = .rxByte d b) ∧
  (∀ (c : RxContext) (b : Byte), ∃ i : Instr, decodeFetch c (.txByte b) = .ok i ∧ i.isCommand = false ∧
    i.wellFormed = true ∧ encode i = .txByte b) ∧
  (∀ i : Instr, i.isCommand = false → i.wellFormed = true →
    (instanceOf i = none → ∀ c : RxContext, decodeFetch c (encode i) = .ok i) ∧
    ∃ c : RxContext, decodeFetch c (encode i) = .ok i)

/-- Records of 95_test_vectors.md Part 3, written out byte by byte, decode to the operations they stand for. -/
def Obligations.SampleRecordsDecode : Prop :=
  decodeRecord [0x01#8, 0xCA#8, 0x32#8, 0x35#8] = .ok (.crcStep 0x32CA#16 0x35#8) ∧
  decodeRecord [0x03#8, 0x03#8, 0x00#8, 0x00#8, 0x00#8, 0x7D#8, 0x7E#8, 0x41#8] = .ok (.stuff [0x7D#8, 0x7E#8, 0x41#8]) ∧
  decodeRecord [0x04#8, 0x02#8, 0x00#8, 0x00#8, 0x00#8, 0x41#8, 0x7D#8] = .ok (.destuff [0x41#8, 0x7D#8]) ∧
  decodeRecord [0x05#8, 0x01#8, 0x13#8, 0x03#8, 0x00#8, 0x00#8, 0x00#8, 0x01#8, 0x02#8, 0x03#8] =
    .ok (.encode 1 0x13#8 [0x01#8, 0x02#8, 0x03#8]) ∧
  decodeRecord ([0x07#8, 0x01#8, 0x0B#8, 0x00#8, 0x00#8, 0x00#8] ++ E1) = .ok (.feed 1 E1) ∧
  decodeRecord ([0x08#8, 0x0B#8, 0x00#8, 0x00#8, 0x00#8] ++ E1) = .ok (.validate E1) ∧
  decodeRecord [0x09#8, 0x04#8, 0x00#8, 0x00#8, 0x00#8, 0x15#8, 0x03#8, 0x00#8, 0x00#8] =
    .ok (.parseHeader [0x15#8, 0x03#8, 0x00#8, 0x00#8])

/-- A step takes the oldest request and runs the instruction its encoded form decodes to, on the state without that request;
with nothing pending the block waits (log entry 3). -/
def Obligations.StepRunsDecoded : Prop :=
  (∀ (s : State) (r : Bytes) (rest : List Request) (i : Instr), s.inbox = .issue (.record r) :: rest →
    decodeRecord r = .ok i → Machine.step s = exec i { s with inbox := rest }) ∧
  (∀ (s : State) (d : Nat) (b : Byte) (rest : List Request) (D : Decoder), s.inbox = .issue (.rxByte d b) :: rest →
    s.decoders[d]? = some D →
    Machine.step s = exec (rxInstr (rxRowOf s.cfg D b) d b) { s with inbox := rest }) ∧
  (∀ (s : State) (b : Byte) (rest : List Request), s.inbox = .issue (.txByte b) :: rest →
    Machine.step s = exec (txDecode b) { s with inbox := rest }) ∧
  (∀ (s : State) (b : Byte) (next : Option Byte) (rest : List Request), s.inbox = .issue (.dsByte b next) :: rest →
    Machine.step s = exec (dsDecode b next) { s with inbox := rest }) ∧
  (∀ s : State, s.inbox = [] → Machine.step s = .next s) ∧
  (∀ i : Instr, i.isCommand = true → i.wellFormed = true → ∀ (s : State) (rest : List Request),
    s.inbox = .issue (encode i) :: rest → Machine.step s = exec i { s with inbox := rest })

/-- R74 with R71's status codes: the response record of every result. -/
def Obligations.ResponseRecords : Prop :=
  (∀ v : U16, responseRecord (.value v) = some ([0x00#8] ++ le16 v)) ∧
  (∀ data : Bytes, data.length < 2 ^ 32 → responseRecord (.bytes data) = some ([0x00#8] ++ counted data)) ∧
  (∀ (data : Bytes) (m : Bool), data.length < 2 ^ 32 →
    responseRecord (.destuffed data m) = some ([0x00#8, if m then 0x01#8 else 0x00#8] ++ counted data)) ∧
  responseRecord .done = some [0x00#8] ∧
  (∀ (fs : List Bytes) (ov : Bool), fs.length < 2 ^ 32 → (∀ f ∈ fs, f.length < 2 ^ 32) →
    responseRecord (.frames fs ov) =
      some ([if ov then 0x05#8 else 0x00#8] ++ le32 fs.length ++ fs.flatMap counted)) ∧
  (∀ (a c i t : Byte) (p : Bytes), p.length < 2 ^ 32 →
    responseRecord (.header a c i t p) = some ([0x00#8, a, c, i, t] ++ counted p)) ∧
  responseRecord (.error .invalidAddress) = some [0x01#8] ∧ responseRecord (.error .frameTooLarge) = some [0x02#8] ∧
  responseRecord (.error .badFcs) = some [0x03#8] ∧ responseRecord (.error .truncatedFrame) = some [0x04#8]
end

