-- ==== Sys2Proof/Laws/State.lean ====
section
/-! SUPPORT. The small lemmas of State and its parts: one for each field and each update, and the canonical form of the
buffers (`Memory.wf`), which every memory operation keeps. -/

namespace Sys2Proof.Machine

/-! ### `State.respond` -/

@[simp] theorem respond_cfg (s : State) (r : Response) : (s.respond r).cfg = s.cfg := rfl
@[simp] theorem respond_decoders (s : State) (r : Response) : (s.respond r).decoders = s.decoders := rfl
@[simp] theorem respond_inFlight (s : State) (r : Response) : (s.respond r).inFlight = s.inFlight := rfl
@[simp] theorem respond_inbox (s : State) (r : Response) : (s.respond r).inbox = s.inbox := rfl
@[simp] theorem respond_outbox (s : State) (r : Response) : (s.respond r).outbox = s.outbox ++ [r] := rfl
@[simp] theorem respond_isOpen (s : State) (r : Response) (d : Nat) : (s.respond r).isOpen d = s.isOpen d := rfl

/-! ### `State.setDecoder` -/

@[simp] theorem setDecoder_cfg (s : State) (d : Nat) (D : Decoder) : (s.setDecoder d D).cfg = s.cfg := rfl
@[simp] theorem setDecoder_decoders (s : State) (d : Nat) (D : Decoder) :
    (s.setDecoder d D).decoders = s.decoders.set d D := rfl
@[simp] theorem setDecoder_inFlight (s : State) (d : Nat) (D : Decoder) : (s.setDecoder d D).inFlight = s.inFlight := rfl
@[simp] theorem setDecoder_inbox (s : State) (d : Nat) (D : Decoder) : (s.setDecoder d D).inbox = s.inbox := rfl
@[simp] theorem setDecoder_outbox (s : State) (d : Nat) (D : Decoder) : (s.setDecoder d D).outbox = s.outbox := rfl
@[simp] theorem setDecoder_isOpen (s : State) (d e : Nat) (D : Decoder) : (s.setDecoder d D).isOpen e = s.isOpen e := rfl

/-- Writing back what `D[d]` holds changes nothing. -/
theorem setDecoder_self {s : State} {d : Nat} {D : Decoder} (h : s.decoders[d]? = some D) : s.setDecoder d D = s := by
  have hd : s.decoders.set d D = s.decoders := by
    apply List.ext_getElem?
    intro e
    rw [List.getElem?_set]
    split
    · next hde => subst hde; split <;> simp_all
    · rfl
  simp [State.setDecoder, hd]

/-! ### `store` and the reset instance -/

@[simp] theorem store_st (D : Decoder) (b : Byte) : (store D b).st = D.st := rfl
@[simp] theorem store_buf (D : Decoder) (b : Byte) : (store D b).buf = D.buf ++ [b] := rfl
@[simp] theorem store_esc (D : Decoder) (b : Byte) : (store D b).esc = D.esc := rfl
@[simp] theorem store_cursor (D : Decoder) (b : Byte) : (store D b).cursor = D.cursor + 1 := by
  simp [Decoder.cursor]

@[simp] theorem decoder_reset_st : Decoder.reset.st = .idle := rfl
@[simp] theorem decoder_reset_buf : Decoder.reset.buf = [] := rfl
@[simp] theorem decoder_reset_esc : Decoder.reset.esc = false := rfl

/-! ### The buffers -/

/-- An append to a buffer that is not full keeps its canonical form (R152). -/
theorem memAppend_wf {cap : Nat} {m : Memory} (b : Byte) (h : m.length < cap) : Memory.wf cap (memAppend m b) = true := by
  simp [Memory.wf, memAppend]; omega

/-- The emptied buffer has the canonical form. -/
theorem memEmpty_wf (cap : Nat) : Memory.wf cap [] = true := by simp [Memory.wf]

/-- Every buffer at reset has the canonical form. -/
theorem reset_memories_wf : ∀ D ∈ State.reset.decoders, Memory.wf State.reset.cfg.bufCap D.buf = true := by
  intro D h
  have : D = Decoder.reset := List.eq_of_mem_replicate h
  subst this
  exact memEmpty_wf _

/-- A read after an append: the new byte at the cursor, every other index as before. -/
theorem memRead_memAppend (m : Memory) (b : Byte) (i : Nat) :
    memRead (memAppend m b) i = if i = m.length then some b else memRead m i := by
  unfold memRead memAppend
  by_cases h : i < m.length
  · simp [List.getElem?_append_left h, Nat.ne_of_lt h]
  · by_cases h' : i = m.length
    · subst h'; simp
    · have : m.length ≤ i := by omega
      rw [List.getElem?_append_right this, List.getElem?_eq_none this, if_neg h']
      apply List.getElem?_eq_none
      simp; omega

end Sys2Proof.Machine
end

