-- ==== Sys2Proof/Laws/Ops.lean ====
section
/-! SUPPORT. What the shared operations can do, said once for each. -/

namespace Sys2Proof.Machine

theorem complete_eq (s : State) (r : Response) : complete s r = .next (s.respond r) := rfl

theorem raiseError_eq (s : State) (e : ErrorCode) : raiseError s e = .next (s.respond (.error e)) := rfl

/-- An instance is open exactly when some open FEED names it. -/
theorem isOpen_iff (s : State) (d : Nat) : s.isOpen d = true ↔ ∃ o ∈ s.inFlight, o.d = d := by
  simp [State.isOpen]

theorem isOpen_eq_false_iff (s : State) (d : Nat) : s.isOpen d = false ↔ ∀ o ∈ s.inFlight, o.d ≠ d := by
  rw [Bool.eq_false_iff, ne_eq, isOpen_iff]
  simp

/-- On an instance that exists and has no open FEED, `withDecoder` is its body. -/
theorem withDecoder_ready {s : State} {d : Nat} {D : Decoder} (k : Decoder → Answer) (hD : s.decoders[d]? = some D)
    (ho : s.isOpen d = false) : withDecoder s d k = k D := by
  simp [withDecoder, hD, ho]

theorem withDecoder_none {s : State} {d : Nat} (k : Decoder → Answer) (hD : s.decoders[d]? = none) :
    withDecoder s d k = .refused (.noSuchInstance d) := by
  simp [withDecoder, hD]

theorem withDecoder_open {s : State} {d : Nat} {D : Decoder} (k : Decoder → Answer) (hD : s.decoders[d]? = some D)
    (ho : s.isOpen d = true) : withDecoder s d k = .fault (.reentrantFeed d) := by
  simp [withDecoder, hD, ho]

/-- Everything `withDecoder` can do: refuse, fault, or run its body. -/
theorem withDecoder_cases (s : State) (d : Nat) (k : Decoder → Answer) :
    (s.decoders[d]? = none ∧ withDecoder s d k = .refused (.noSuchInstance d)) ∨
    (∃ D, s.decoders[d]? = some D ∧ s.isOpen d = true ∧ withDecoder s d k = .fault (.reentrantFeed d)) ∨
    (∃ D, s.decoders[d]? = some D ∧ s.isOpen d = false ∧ withDecoder s d k = k D) := by
  cases hD : s.decoders[d]? with
  | none => exact .inl ⟨rfl, withDecoder_none k hD⟩
  | some D =>
    cases ho : s.isOpen d with
    | true => exact .inr (.inl ⟨D, rfl, rfl, withDecoder_open k hD ho⟩)
    | false => exact .inr (.inr ⟨D, rfl, rfl, withDecoder_ready k hD ho⟩)

/-- If `withDecoder` answers a next state, its body did, on the instance. -/
theorem withDecoder_next {s t : State} {d : Nat} {k : Decoder → Answer} (h : withDecoder s d k = .next t) :
    ∃ D, s.decoders[d]? = some D ∧ s.isOpen d = false ∧ k D = .next t := by
  rcases withDecoder_cases s d k with ⟨_, e⟩ | ⟨_, _, _, e⟩ | ⟨D, hD, ho, e⟩
  · rw [e] at h; cases h
  · rw [e] at h; cases h
  · exact ⟨D, hD, ho, by rw [← e, h]⟩

end Sys2Proof.Machine
end

