-- ==== Sys2Proof/Laws/Codec.lean ====
section
/-! SUPPORT. The equations of the CRC engine, the stuffer and the de-stuffer, and how an encoding can end. -/

namespace Sys2Proof.Machine

/-! ### CRC engine -/

@[simp] theorem fcs_nil (seed : U16) : fcs seed [] = seed := rfl

@[simp] theorem fcs_cons (seed : U16) (b : Byte) (rest : Bytes) : fcs seed (b :: rest) = fcs (crcStep seed b) rest := rfl

theorem frameCheck_iff (r : Bytes) : frameCheck r = true ↔ fcs INIT_FCS r = GOOD_FCS := by
  simp [frameCheck]

/-! ### Stuffer -/

@[simp] theorem stuff_nil : stuff [] = [] := rfl

@[simp] theorem stuff_cons (b : Byte) (rest : Bytes) : stuff (b :: rest) = stuffByte b ++ stuff rest := rfl

theorem stuffByte_flag : stuffByte FLAG = [ESCAPE, ESC_FLAG] := by decide

theorem stuffByte_escape : stuffByte ESCAPE = [ESCAPE, ESC_ESCAPE] := by decide

theorem stuffByte_other {b : Byte} (hf : b ≠ FLAG) (he : b ≠ ESCAPE) : stuffByte b = [b] := by
  simp [stuffByte, hf, he, txOtherOut]

/-- The three outputs of the stuffer for one byte. -/
theorem stuffByte_cases (b : Byte) :
    (b = FLAG ∧ stuffByte b = [ESCAPE, ESC_FLAG]) ∨ (b = ESCAPE ∧ stuffByte b = [ESCAPE, ESC_ESCAPE]) ∨
    (b ≠ FLAG ∧ b ≠ ESCAPE ∧ stuffByte b = [b]) := by
  by_cases hf : b = FLAG
  · subst hf; exact .inl ⟨rfl, stuffByte_flag⟩
  · by_cases he : b = ESCAPE
    · subst he; exact .inr (.inl ⟨rfl, stuffByte_escape⟩)
    · exact .inr (.inr ⟨hf, he, stuffByte_other hf he⟩)

/-! ### De-stuffer -/

@[simp] theorem destuff_nil : destuff [] = ([], false) := rfl

theorem dsSelect_other {b : Byte} (h : b ≠ ESCAPE) (next : Option Byte) : dsSelect b next = .other := by
  simp [dsSelect, h]

theorem dsSelect_lone {x : Byte} (hf : x ≠ ESC_FLAG) (he : x ≠ ESC_ESCAPE) : dsSelect ESCAPE (some x) = .lone := by
  simp [dsSelect, hf, he]

/-- A byte other than ESCAPE is emitted as it is. -/
theorem destuff_other {b : Byte} (h : b ≠ ESCAPE) (rest : Bytes) :
    destuff (b :: rest) = (b :: (destuff rest).1, (destuff rest).2) := by
  cases rest with
  | nil => simp [destuff, dsSelect_other h, dsEmit, dsMalformed]
  | cons c rest => simp [destuff, dsSelect_other h, dsEmit, dsMalformed, dsAdvance]

/-- An ESCAPE that starts no pair is emitted alone. -/
theorem destuff_lone {x : Byte} (hf : x ≠ ESC_FLAG) (he : x ≠ ESC_ESCAPE) (rest : Bytes) :
    destuff (ESCAPE :: x :: rest) = (ESCAPE :: (destuff (x :: rest)).1, (destuff (x :: rest)).2) := by
  simp [destuff, dsSelect_lone hf he, dsEmit, dsMalformed, dsAdvance]

theorem destuff_pair_flag (rest : Bytes) :
    destuff (ESCAPE :: ESC_FLAG :: rest) = (FLAG :: (destuff rest).1, (destuff rest).2) := by
  have h : dsSelect ESCAPE (some ESC_FLAG) = .flag := by decide
  simp [destuff, h, dsEmit, dsMalformed, dsAdvance]

theorem destuff_pair_escape (rest : Bytes) :
    destuff (ESCAPE :: ESC_ESCAPE :: rest) = (ESCAPE :: (destuff rest).1, (destuff rest).2) := by
  have h : dsSelect ESCAPE (some ESC_ESCAPE) = .esc := by decide
  simp [destuff, h, dsEmit, dsMalformed, dsAdvance]

theorem destuff_tail : destuff [ESCAPE] = ([ESCAPE], true) := by decide

/-! ### Encoder and validator -/

/-- How an encoding can end. -/
theorem encodeFrame_cases (cfg : Config) (id : Nat) (t : Byte) (p : Bytes) :
    (64 ≤ id ∧ encodeFrame cfg id t p = .error .invalidAddress) ∨
    (id ≤ 63 ∧ cfg.maxRawFrame < 4 + p.length + 2 ∧ encodeFrame cfg id t p = .error .frameTooLarge) ∨
    (id ≤ 63 ∧ 4 + p.length + 2 ≤ cfg.maxRawFrame ∧ frameCheck (rawFrame cfg id t p) = true ∧
      encodeFrame cfg id t p = .ok (wrapFrame (rawFrame cfg id t p))) ∨
    (id ≤ 63 ∧ 4 + p.length + 2 ≤ cfg.maxRawFrame ∧ frameCheck (rawFrame cfg id t p) = false ∧
      encodeFrame cfg id t p = .selfCheckFailed) := by
  unfold encodeFrame
  by_cases h1 : 64 ≤ id
  · simp [addressOutOfDomain, ADDR_BITS, h1]
  · by_cases h2 : cfg.maxRawFrame < 4 + p.length + 2
    · simp [addressOutOfDomain, ADDR_BITS, h1, exceedsCeiling, HEADER_LEN, FCS_LEN, h2]; omega
    · cases h3 : frameCheck (rawFrame cfg id t p)
      · simp [addressOutOfDomain, ADDR_BITS, h1, exceedsCeiling, HEADER_LEN, FCS_LEN, h2]; omega
      · simp [addressOutOfDomain, ADDR_BITS, h1, exceedsCeiling, HEADER_LEN, FCS_LEN, h2]; omega

/-- How VALIDATE can end. -/
theorem execValidate_cases (frame : Bytes) (s : State) :
    (((destuff (stripFlags frame)).2 = true ∨ frameCheck (destuff (stripFlags frame)).1 = false) ∧
      execValidate frame s = .next (s.respond (.error .badFcs))) ∨
    ((destuff (stripFlags frame)).2 = false ∧ frameCheck (destuff (stripFlags frame)).1 = true ∧
      execValidate frame s = .next (s.respond (.bytes (dropFcs (destuff (stripFlags frame)).1)))) := by
  unfold execValidate
  cases h1 : (destuff (stripFlags frame)).2
  · cases h2 : frameCheck (destuff (stripFlags frame)).1
    · simp [h1, h2, raiseError_eq]
    · simp [h1, h2, complete_eq]
  · simp [h1, raiseError_eq]

end Sys2Proof.Machine
end

