-- ==== Sys2Proof/Laws/PerInstr.lean ====
section
/-! SUPPORT. One statement for every instruction: its encoded form is as long as the tables of spec/30_encoding.md R73, R68 and
R69 say, and goes to the input they say. -/

namespace Sys2Proof.Laws

/-- How many bytes an encoded form shows: a record's bytes, or the bytes on a unit's input. -/
def fetchLength : Fetch → Nat
  | .record bytes => bytes.length
  | .rxByte _ _ => 1
  | .txByte _ => 1
  | .dsByte _ none => 1
  | .dsByte _ (some _) => 2

/-- The length the tables give: R73's fixed fields and operand bytes, one byte for a row, two where the row's condition looks at
the byte after it. -/
def tableLength : Instr → Nat
  | .crcStep _ _ => 4
  | .fcs _ data => 7 + data.length
  | .stuff data => 5 + data.length
  | .destuff data => 5 + data.length
  | .encode _ _ payload => 7 + payload.length
  | .decReset _ => 2
  | .feed _ chunk => 6 + chunk.length
  | .validate frame => 5 + frame.length
  | .parseHeader body => 5 + body.length
  | .rxOvf _ _ => 1
  | .rxEsc _ => 1
  | .rxEscd _ _ => 1
  | .rxIdleF _ => 1
  | .rxIdleO _ _ => 1
  | .rxCfmgF0 _ => 1
  | .rxCfmgF1 _ => 1
  | .rxCfmgO _ _ => 1
  | .rxCfmdF _ => 1
  | .rxCfmdO _ _ => 1
  | .rxPayF _ => 1
  | .rxPayO _ _ => 1
  | .txFlag => 1
  | .txEsc => 1
  | .txOther _ => 1
  | .dsFlag => 2
  | .dsEsc => 2
  | .dsLone _ => 2
  | .dsTail => 1
  | .dsOther _ => 1

/-- A command's encoded form is a record. -/
def isRecord : Fetch → Bool
  | .record _ => true
  | .rxByte _ _ => false
  | .txByte _ => false
  | .dsByte _ _ => false

/-- The encoded form is as long as the tables say, and is a record exactly for a command. -/
def RecordLength.Statement (i : Instr) : Prop :=
  fetchLength (encode i) = tableLength i ∧ isRecord (encode i) = i.isCommand

theorem bytesField_length (data : Bytes) : (bytesField data).length = 4 + data.length := by
  simp [bytesField, u32Field]; omega

theorem RecordLength.crcStep (seed : U16) (b : Byte) : RecordLength.Statement (.crcStep seed b) := ⟨rfl, rfl⟩

theorem RecordLength.fcs (seed : U16) (data : Bytes) : RecordLength.Statement (.fcs seed data) :=
  ⟨by simp [encode, fetchLength, tableLength, bytesField_length, u16Field]; omega, rfl⟩

theorem RecordLength.stuff (data : Bytes) : RecordLength.Statement (.stuff data) :=
  ⟨by simp [encode, fetchLength, tableLength, bytesField_length]; omega, rfl⟩

theorem RecordLength.destuff (data : Bytes) : RecordLength.Statement (.destuff data) :=
  ⟨by simp [encode, fetchLength, tableLength, bytesField_length]; omega, rfl⟩

theorem RecordLength.encode (addressId : Nat) (msgType : Byte) (payload : Bytes) :
    RecordLength.Statement (.encode addressId msgType payload) :=
  ⟨by simp [Sys2Proof.encode, fetchLength, tableLength, bytesField_length]; omega, rfl⟩

theorem RecordLength.decReset (d : Nat) : RecordLength.Statement (.decReset d) := ⟨rfl, rfl⟩

theorem RecordLength.feed (d : Nat) (chunk : Bytes) : RecordLength.Statement (.feed d chunk) :=
  ⟨by simp [Sys2Proof.encode, fetchLength, tableLength, bytesField_length]; omega, rfl⟩

theorem RecordLength.validate (frame : Bytes) : RecordLength.Statement (.validate frame) :=
  ⟨by simp [Sys2Proof.encode, fetchLength, tableLength, bytesField_length]; omega, rfl⟩

theorem RecordLength.parseHeader (body : Bytes) : RecordLength.Statement (.parseHeader body) :=
  ⟨by simp [Sys2Proof.encode, fetchLength, tableLength, bytesField_length]; omega, rfl⟩

theorem RecordLength.rxOvf (d : Nat) (b : Byte) : RecordLength.Statement (.rxOvf d b) := ⟨rfl, rfl⟩
theorem RecordLength.rxEsc (d : Nat) : RecordLength.Statement (.rxEsc d) := ⟨rfl, rfl⟩
theorem RecordLength.rxEscd (d : Nat) (b : Byte) : RecordLength.Statement (.rxEscd d b) := ⟨rfl, rfl⟩
theorem RecordLength.rxIdleF (d : Nat) : RecordLength.Statement (.rxIdleF d) := ⟨rfl, rfl⟩
theorem RecordLength.rxIdleO (d : Nat) (b : Byte) : RecordLength.Statement (.rxIdleO d b) := ⟨rfl, rfl⟩
theorem RecordLength.rxCfmgF0 (d : Nat) : RecordLength.Statement (.rxCfmgF0 d) := ⟨rfl, rfl⟩
theorem RecordLength.rxCfmgF1 (d : Nat) : RecordLength.Statement (.rxCfmgF1 d) := ⟨rfl, rfl⟩
theorem RecordLength.rxCfmgO (d : Nat) (b : Byte) : RecordLength.Statement (.rxCfmgO d b) := ⟨rfl, rfl⟩
theorem RecordLength.rxCfmdF (d : Nat) : RecordLength.Statement (.rxCfmdF d) := ⟨rfl, rfl⟩
theorem RecordLength.rxCfmdO (d : Nat) (b : Byte) : RecordLength.Statement (.rxCfmdO d b) := ⟨rfl, rfl⟩
theorem RecordLength.rxPayF (d : Nat) : RecordLength.Statement (.rxPayF d) := ⟨rfl, rfl⟩
theorem RecordLength.rxPayO (d : Nat) (b : Byte) : RecordLength.Statement (.rxPayO d b) := ⟨rfl, rfl⟩
theorem RecordLength.txFlag : RecordLength.Statement .txFlag := ⟨rfl, rfl⟩
theorem RecordLength.txEsc : RecordLength.Statement .txEsc := ⟨rfl, rfl⟩
theorem RecordLength.txOther (b : Byte) : RecordLength.Statement (.txOther b) := ⟨rfl, rfl⟩
theorem RecordLength.dsFlag : RecordLength.Statement .dsFlag := ⟨rfl, rfl⟩
theorem RecordLength.dsEsc : RecordLength.Statement .dsEsc := ⟨rfl, rfl⟩
theorem RecordLength.dsLone (next : Byte) : RecordLength.Statement (.dsLone next) := ⟨rfl, rfl⟩
theorem RecordLength.dsTail : RecordLength.Statement .dsTail := ⟨rfl, rfl⟩
theorem RecordLength.dsOther (b : Byte) : RecordLength.Statement (.dsOther b) := ⟨rfl, rfl⟩

end Sys2Proof.Laws
end

