-- ==== Sys2Proof/Laws/StreamDecoder.lean ====
section
/-! SUPPORT. What a byte does to an instance, row by row, the equations of the FEED loop, and what FEED, DEC_RESET and a row
alone can answer. -/

namespace Sys2Proof.Machine

theorem flag_ne_escape : FLAG ≠ ESCAPE := by decide

theorem bufferFull_iff (cfg : Config) (D : Decoder) : bufferFull cfg D = true ↔ cfg.bufCap ≤ D.buf.length :=
  decide_eq_true_iff

theorem bufferFull_eq_false_iff (cfg : Config) (D : Decoder) : bufferFull cfg D = false ↔ D.buf.length < cfg.bufCap :=
  decide_eq_false_iff_not.trans Nat.not_le

/-- The row selection of R153 to R158 never yields the overflow row. -/
theorem rxSelectByte_ne_ovf (empty esc : Bool) (st : DecState) (b : Byte) : rxSelectByte empty esc st b ≠ .ovf := by
  unfold rxSelectByte
  cases st <;> cases esc <;> cases empty <;> (repeat' split) <;> simp_all

theorem rxRowOf_full {cfg : Config} {D : Decoder} (h : cfg.bufCap ≤ D.buf.length) (b : Byte) : rxRowOf cfg D b = .ovf := by
  have h' : bufferFull cfg D = true := (bufferFull_iff cfg D).2 h
  simp [rxRowOf, rxSelect, rxContext, h']

theorem rxRowOf_notFull {cfg : Config} {D : Decoder} (h : D.buf.length < cfg.bufCap) (b : Byte) :
    rxRowOf cfg D b = rxSelectByte D.buf.isEmpty D.esc D.st b := by
  have h' : bufferFull cfg D = false := (bufferFull_eq_false_iff cfg D).2 h
  simp [rxRowOf, rxSelect, rxContext, h']

/-- A byte that meets a full buffer, the rest of the chunk dropped. -/
theorem rxStep_full_drop {cfg : Config} {D : Decoder} (h : cfg.bufCap ≤ D.buf.length)
    (hd : cfg.overflowDropsRestOfChunk = true) (b : Byte) :
    rxStep cfg D b = { dec := Decoder.reset, frames := [], overflow := true, stop := true } := by
  simp [rxStep, rxRowOf_full h, rxRun, hd, rxAction]

/-- A byte that meets a full buffer and is processed from the reset state. -/
theorem rxStep_full_resume {cfg : Config} {D : Decoder} (h : cfg.bufCap ≤ D.buf.length)
    (hd : cfg.overflowDropsRestOfChunk = false) (b : Byte) :
    rxStep cfg D b =
      { dec := (rxByte Decoder.reset b).1, frames := (rxByte Decoder.reset b).2, overflow := true, stop := false } := by
  simp [rxStep, rxRowOf_full h, rxRun, hd, rxAction]

/-- A byte that meets a buffer with room. -/
theorem rxStep_notFull {cfg : Config} {D : Decoder} (h : D.buf.length < cfg.bufCap) (b : Byte) :
    rxStep cfg D b = { dec := (rxByte D b).1, frames := (rxByte D b).2, overflow := false, stop := false } := by
  have hne := rxSelectByte_ne_ovf D.buf.isEmpty D.esc D.st b
  simp [rxStep, rxRowOf_notFull h, rxRun, hne, rxByte]

/-- Everything one byte can do by R153 to R158. -/
theorem rxByte_cases (D : Decoder) (b : Byte) :
    (b = ESCAPE ∧ rxByte D b = ({ D with buf := D.buf ++ [b], esc := true }, [])) ∨
    (b ≠ ESCAPE ∧ D.esc = true ∧ rxByte D b = ({ D with buf := D.buf ++ [b], esc := false }, [])) ∨
    (b ≠ ESCAPE ∧ D.esc = false ∧
      ((D.st = .idle ∧ b = FLAG ∧ rxByte D b = ({ D with buf := D.buf ++ [b], st := .confirming }, [])) ∨
       (D.st = .idle ∧ b ≠ FLAG ∧ rxByte D b = (D, [])) ∨
       (D.st = .confirming ∧ b = FLAG ∧ D.buf = [] ∧
          rxByte D b = ({ D with buf := D.buf ++ [b], st := .confirmed }, [])) ∨
       (D.st = .confirming ∧ b = FLAG ∧ D.buf ≠ [] ∧ rxByte D b = ({ D with st := .confirmed }, [])) ∨
       (D.st = .confirming ∧ b ≠ FLAG ∧ rxByte D b = ({ D with buf := [], st := .idle }, [])) ∨
       (D.st = .confirmed ∧ b = FLAG ∧ rxByte D b = ({ D with buf := D.buf ++ [b] }, [])) ∨
       (D.st = .confirmed ∧ b ≠ FLAG ∧ rxByte D b = ({ D with buf := D.buf ++ [b], st := .payload }, [])) ∨
       (D.st = .payload ∧ b = FLAG ∧ rxByte D b = ({ D with buf := [], st := .confirming }, [D.buf ++ [b]])) ∨
       (D.st = .payload ∧ b ≠ FLAG ∧ rxByte D b = ({ D with buf := D.buf ++ [b] }, [])))) := by
  by_cases hb : b = ESCAPE
  · exact .inl ⟨hb, by simp [rxByte, rxSelectByte, hb, rxAction, store, memAppend]⟩
  · cases he : D.esc with
    | true =>
      exact .inr (.inl ⟨hb, rfl, by simp [rxByte, rxSelectByte, hb, he, rxAction, store, memAppend]⟩)
    | false =>
      refine .inr (.inr ⟨hb, rfl, ?_⟩)
      cases hs : D.st <;> by_cases hf : b = FLAG <;> by_cases hn : D.buf = [] <;>
        simp [rxByte, rxSelectByte, hb, he, hs, hf, hn, rxAction, store, memAppend, flag_ne_escape]

/-! ### FEED -/

@[simp] theorem feedLoop_nil (cfg : Config) (D : Decoder) :
    feedLoop cfg D [] = { dec := D, frames := [], overflow := false } := rfl

theorem feedLoop_stop {cfg : Config} {D : Decoder} {b : Byte} (h : (rxStep cfg D b).stop = true) (rest : Bytes) :
    feedLoop cfg D (b :: rest) =
      { dec := (rxStep cfg D b).dec, frames := (rxStep cfg D b).frames, overflow := (rxStep cfg D b).overflow } := by
  simp [feedLoop, h]

theorem feedLoop_go {cfg : Config} {D : Decoder} {b : Byte} (h : (rxStep cfg D b).stop = false) (rest : Bytes) :
    feedLoop cfg D (b :: rest) =
      { dec := (feedLoop cfg (rxStep cfg D b).dec rest).dec,
        frames := (rxStep cfg D b).frames ++ (feedLoop cfg (rxStep cfg D b).dec rest).frames,
        overflow := (rxStep cfg D b).overflow || (feedLoop cfg (rxStep cfg D b).dec rest).overflow } := by
  simp [feedLoop, h]

/-! ### Answers -/

/-- FEED on an instance that is there and has no open FEED. -/
theorem execFeed_ready {s : State} {d : Nat} {D : Decoder} (hD : s.decoders[d]? = some D) (ho : s.isOpen d = false)
    (chunk : Bytes) :
    execFeed d chunk s = .next ((s.setDecoder d (feedLoop s.cfg D chunk).dec).respond
      (.frames (feedLoop s.cfg D chunk).frames (feedLoop s.cfg D chunk).overflow)) := by
  simp [execFeed, withDecoder_ready _ hD ho, complete_eq]

/-- DEC_RESET on an instance that is there and has no open FEED. -/
theorem execDecReset_ready {s : State} {d : Nat} {D : Decoder} (hD : s.decoders[d]? = some D) (ho : s.isOpen d = false) :
    execDecReset d s = .next ((s.setDecoder d Decoder.reset).respond .done) := by
  simp [execDecReset, withDecoder_ready _ hD ho, complete_eq]

/-- The row that is selected, run alone. -/
theorem runRxRow_ready {s : State} {d : Nat} {D : Decoder} {b : Byte} {row : RxRow} (hD : s.decoders[d]? = some D)
    (ho : s.isOpen d = false) (hr : rxRowOf s.cfg D b = row) :
    runRxRow row d b s =
      .next ((s.setDecoder d (rxStep s.cfg D b).dec).respond (.frames (rxStep s.cfg D b).frames (rxStep s.cfg D b).overflow)) := by
  subst hr
  simp [runRxRow, withDecoder_ready _ hD ho, complete_eq, rxStep]

/-- A row that is not selected is refused. -/
theorem runRxRow_notSelected {s : State} {d : Nat} {D : Decoder} {b : Byte} {row : RxRow} (hD : s.decoders[d]? = some D)
    (ho : s.isOpen d = false) (hr : rxRowOf s.cfg D b ≠ row) : runRxRow row d b s = .refused (.rowNotSelected row) := by
  simp [runRxRow, withDecoder_ready _ hD ho, hr]

/-- If a row alone answers a next state, it was selected, and the step of its byte was taken. -/
theorem runRxRow_next {s t : State} {d : Nat} {b : Byte} {row : RxRow} (h : runRxRow row d b s = .next t) :
    ∃ D, s.decoders[d]? = some D ∧ s.isOpen d = false ∧ rxRowOf s.cfg D b = row ∧
      t = (s.setDecoder d (rxStep s.cfg D b).dec).respond (.frames (rxStep s.cfg D b).frames (rxStep s.cfg D b).overflow) := by
  obtain ⟨D, hD, ho, hk⟩ := withDecoder_next h
  by_cases hr : rxRowOf s.cfg D b = row
  · refine ⟨D, hD, ho, hr, ?_⟩
    rw [runRxRow_ready hD ho hr] at h
    exact (Host.Outcome.next.inj h).symm
  · rw [runRxRow_notSelected hD ho hr] at h
    cases h

/-- No byte of a FEED breaks the canonical form of the buffer. -/
theorem rxByte_memory_wf {cfg : Config} {D : Decoder} (h : D.buf.length < cfg.bufCap) (b : Byte) :
    Memory.wf cfg.bufCap (rxByte D b).1.buf = true := by
  have happ : Memory.wf cfg.bufCap (D.buf ++ [b]) = true := memAppend_wf b h
  have hself : Memory.wf cfg.bufCap D.buf = true := by simp [Memory.wf]; omega
  have hnil : Memory.wf cfg.bufCap [] = true := memEmpty_wf _
  rcases rxByte_cases D b with ⟨_, e⟩ | ⟨_, _, e⟩ | ⟨_, _, h | h | h | h | h | h | h | h | h⟩ <;>
    first
      | (rw [e]; exact happ)
      | (obtain ⟨_, _, e⟩ := h; rw [e]; first | exact happ | exact hself | exact hnil)
      | (obtain ⟨_, _, _, e⟩ := h; rw [e]; first | exact happ | exact hself)

end Sys2Proof.Machine
end

