-- ==== Sys2Proof/Tests/Slice0.lean ====
section
/-! SUPPORT. The model's own tests: ill-formed terms that WellFormed refuses, one decoding per constructor written out from the
spec's tables, single steps against spec/95_test_vectors.md, and a witness for the hypotheses of each statement. -/

namespace Sys2Proof.Tests

open Sys2Proof Sys2Proof.Machine Sys2Proof.SpecText

/-! ### Helpers -/

/-- Two instances, the first in state `D`, nothing pending. -/
def host (cfg : Config) (D : Decoder) : State := { cfg := cfg, decoders := [D, fresh], inFlight := [], inbox := [], outbox := [] }

/-- The test instantiation with a buffer of `cap` bytes. -/
def withCap (cap : Nat) (drops : Bool) : Config := { testConfig with bufCap := cap, overflowDropsRestOfChunk := drops }

/-- A host that has asked for one thing. -/
def asked (r : Request) : State := { host testConfig fresh with inbox := [r] }

/-- A FEED on instance 0 is open. -/
def opened : State := { host testConfig fresh with inFlight := [{ d := 0, response := .frames [] false }] }

/-- The results an instruction leaves in the outbox. -/
def results (i : Instr) (s : State) : Option (List Response) := (nextState (exec i s)).map State.outbox

/-- What an instruction leaves in instance 0. -/
def instanceAfter (i : Instr) (s : State) : Option Decoder := (nextState (exec i s)).bind (fun t => t.decoders[0]?)

theorem ready_host (cfg : Config) (D : Decoder) : Ready (host cfg D) 0 D := ⟨rfl, by simp [host]⟩

theorem ready_host_other (cfg : Config) (D : Decoder) : Ready (host cfg D) 1 fresh := ⟨rfl, by simp [host]⟩

/-! ### WellFormed: an ill-formed term for each check -/

/-- An instance id and an address id are one byte of a record (R73). -/
theorem test_wellFormed_ids : Instr.wellFormed (.decReset 256) = false ∧ Instr.wellFormed (.feed 256 []) = false ∧
    Instr.wellFormed (.encode 256 0 []) = false ∧ Instr.wellFormed (.decReset 255) = true := by decide

/-- A `bytes` operand of 2^32 bytes has no length field (R73). -/
theorem test_wellFormed_length (data : Bytes) (h : data.length = 2 ^ 32) :
    Instr.wellFormed (.fcs 0 data) = false ∧ Instr.wellFormed (.stuff data) = false ∧
    Instr.wellFormed (.destuff data) = false ∧ Instr.wellFormed (.encode 0 0 data) = false ∧
    Instr.wellFormed (.feed 0 data) = false ∧ Instr.wellFormed (.validate data) = false ∧
    Instr.wellFormed (.parseHeader data) = false := by
  simp [Instr.wellFormed, fitsLength, h]

theorem test_wellFormed_length_input : (List.replicate (2 ^ 32) (0 : Byte)).length = 2 ^ 32 := List.length_replicate

/-- A byte outside its row's class (R68). -/
theorem test_wellFormed_rx : Instr.wellFormed (.rxEscd 0 0x7D#8) = false ∧ Instr.wellFormed (.rxIdleO 0 0x7E#8) = false ∧
    Instr.wellFormed (.rxCfmgO 0 0x7D#8) = false ∧ Instr.wellFormed (.rxCfmdO 0 0x7E#8) = false ∧
    Instr.wellFormed (.rxPayO 0 0x7D#8) = false ∧ Instr.wellFormed (.rxOvf 0 0x7D#8) = true := by decide

/-- A byte outside its row's class (R69). -/
theorem test_wellFormed_tx_ds : Instr.wellFormed (.txOther 0x7E#8) = false ∧ Instr.wellFormed (.dsLone 0x5E#8) = false ∧
    Instr.wellFormed (.dsLone 0x5D#8) = false ∧ Instr.wellFormed (.dsOther 0x7D#8) = false ∧
    Instr.wellFormed (.dsOther 0x7E#8) = true := by decide

/-! ### Decoding: one record of R73 for each operation -/

theorem test_decode_crcStep : decodeRecord [0x01#8, 0x34#8, 0x12#8, 0xFF#8] = .ok (.crcStep 0x1234#16 0xFF#8) := by decide
theorem test_decode_fcs : decodeRecord [0x02#8, 0x9B#8, 0xBC#8, 0x02#8, 0#8, 0#8, 0#8, 0x00#8, 0x13#8] =
    .ok (.fcs 0xBC9B#16 [0x00#8, 0x13#8]) := by decide
theorem test_decode_stuff : decodeRecord [0x03#8, 0x01#8, 0#8, 0#8, 0#8, 0x7E#8] = .ok (.stuff [0x7E#8]) := by decide
theorem test_decode_destuff : decodeRecord [0x04#8, 0x01#8, 0#8, 0#8, 0#8, 0x7D#8] = .ok (.destuff [0x7D#8]) := by decide
theorem test_decode_encode : decodeRecord [0x05#8, 0x1F#8, 0x01#8, 0x01#8, 0#8, 0#8, 0#8, 0xAA#8] =
    .ok (.encode 31 0x01#8 [0xAA#8]) := by decide
theorem test_decode_decReset : decodeRecord [0x06#8, 0x03#8] = .ok (.decReset 3) := by decide
theorem test_decode_feed : decodeRecord [0x07#8, 0x02#8, 0x01#8, 0#8, 0#8, 0#8, 0x41#8] = .ok (.feed 2 [0x41#8]) := by decide
theorem test_decode_validate : decodeRecord [0x08#8, 0x00#8, 0#8, 0#8, 0#8] = .ok (.validate []) := by decide
theorem test_decode_parseHeader : decodeRecord [0x09#8, 0x01#8, 0#8, 0#8, 0#8, 0x05#8] = .ok (.parseHeader [0x05#8]) := by decide

/-- R75: an unassigned code, a record cut short, a record too long. -/
theorem test_decode_refused : decodeRecord [0x00#8] = .error (.unassignedCode 0x00#8) ∧
    decodeRecord [0x0A#8, 0x01#8] = .error (.unassignedCode 0x0A#8) ∧ decodeRecord [] = .error .illFormedRecord ∧
    decodeRecord [0x03#8, 0x02#8, 0#8, 0#8, 0#8, 0x41#8] = .error .illFormedRecord ∧
    decodeRecord [0x06#8, 0x00#8, 0x00#8] = .error .illFormedRecord := by decide

/-! ### Decoding: one byte of R68 for each decoder row (context: full, empty, esc, st) -/

theorem test_decode_rxOvf : decodeFetch ⟨true, false, true, .payload⟩ (.rxByte 1 0x7D#8) = .ok (.rxOvf 1 0x7D#8) := by decide
theorem test_decode_rxEsc : decodeFetch ⟨false, false, true, .payload⟩ (.rxByte 1 0x7D#8) = .ok (.rxEsc 1) := by decide
theorem test_decode_rxEscd : decodeFetch ⟨false, false, true, .payload⟩ (.rxByte 1 0x7E#8) = .ok (.rxEscd 1 0x7E#8) := by decide
theorem test_decode_rxIdleF : decodeFetch ⟨false, true, false, .idle⟩ (.rxByte 1 0x7E#8) = .ok (.rxIdleF 1) := by decide
theorem test_decode_rxIdleO : decodeFetch ⟨false, true, false, .idle⟩ (.rxByte 1 0x7F#8) = .ok (.rxIdleO 1 0x7F#8) := by decide
theorem test_decode_rxCfmgF0 : decodeFetch ⟨false, true, false, .confirming⟩ (.rxByte 1 0x7E#8) = .ok (.rxCfmgF0 1) := by decide
theorem test_decode_rxCfmgF1 : decodeFetch ⟨false, false, false, .confirming⟩ (.rxByte 1 0x7E#8) = .ok (.rxCfmgF1 1) := by decide
theorem test_decode_rxCfmgO : decodeFetch ⟨false, false, false, .confirming⟩ (.rxByte 1 0x7C#8) = .ok (.rxCfmgO 1 0x7C#8) := by
  decide
theorem test_decode_rxCfmdF : decodeFetch ⟨false, false, false, .confirmed⟩ (.rxByte 1 0x7E#8) = .ok (.rxCfmdF 1) := by decide
theorem test_decode_rxCfmdO : decodeFetch ⟨false, false, false, .confirmed⟩ (.rxByte 1 0x5E#8) = .ok (.rxCfmdO 1 0x5E#8) := by
  decide
theorem test_decode_rxPayF : decodeFetch ⟨false, false, false, .payload⟩ (.rxByte 1 0x7E#8) = .ok (.rxPayF 1) := by decide
theorem test_decode_rxPayO : decodeFetch ⟨false, false, false, .payload⟩ (.rxByte 1 0x00#8) = .ok (.rxPayO 1 0x00#8) := by decide

/-! ### Decoding: the rows of R69 -/

theorem test_decode_txFlag : txDecode 0x7E#8 = .txFlag := by decide
theorem test_decode_txEsc : txDecode 0x7D#8 = .txEsc := by decide
theorem test_decode_txOther : txDecode 0x5E#8 = .txOther 0x5E#8 := by decide
theorem test_decode_dsFlag : dsDecode 0x7D#8 (some 0x5E#8) = .dsFlag := by decide
theorem test_decode_dsEsc : dsDecode 0x7D#8 (some 0x5D#8) = .dsEsc := by decide
theorem test_decode_dsLone : dsDecode 0x7D#8 (some 0x7D#8) = .dsLone 0x7D#8 := by decide
theorem test_decode_dsTail : dsDecode 0x7D#8 none = .dsTail := by decide
theorem test_decode_dsOther : dsDecode 0x5E#8 (some 0x5E#8) = .dsOther 0x5E#8 := by decide

/-! ### Words of the opcode table, and the first step after reset (log entry 7) -/

theorem test_tableWord_commands : (List.range 9).map (fun k => decodeTableWord 8 (k + 1)) =
    [some (.crcStep 0 0), some (.fcs 0 []), some (.stuff []), some (.destuff []), some (.encode 0 0 []), some (.decReset 0),
     some (.feed 0 []), some (.validate []), some (.parseHeader [])] := by decide

theorem test_tableWord_bytes : decodeTableWord 8 0x7E = some (.rxIdleF 0) ∧ decodeTableWord 8 0x7D = some (.rxEsc 0) ∧
    decodeTableWord 16 0x7D5E = some .dsFlag ∧ decodeTableWord 16 0x7D5D = some .dsEsc ∧ decodeTableWord 8 0x0A = none := by decide

/-- The next state of the first step after reset exists: ENCODE's needs the opaque header constants, and is not asked here. -/
theorem test_first_step : ∀ k ∈ [1, 2, 3, 4, 6, 7, 8, 9, 0x7E, 0x7D],
    (nextState (step (State.reset.withFetchWord 8 k))).isSome = true := by decide +kernel

theorem test_first_step_pairs : ∀ k ∈ [0x7D5E, 0x7D5D],
    (nextState (step (State.reset.withFetchWord 16 k))).isSome = true := by decide +kernel

/-! ### Single steps; the expected results are those of spec/95_test_vectors.md, Part 2 -/

/-- V-C4, V-C5. -/
theorem test_crcStep : results (.crcStep 0x1234#16 0xFF#8) (host testConfig fresh) = some [.value 0x78CD#16] ∧
    results (.crcStep 0xAB00#16 0x00#8) (host testConfig fresh) = some [.value 0x00AB#16] := by decide

/-- V-C7. -/
theorem test_fcs : results (.fcs 0xFFFF#16 [0x31#8, 0x32#8, 0x33#8, 0x34#8, 0x35#8, 0x36#8, 0x37#8, 0x38#8, 0x39#8])
    (host testConfig fresh) = some [.value 0x6F91#16] := by decide

/-- V-S7. -/
theorem test_stuff : results (.stuff [0x7D#8, 0x7D#8, 0x7E#8, 0x7E#8]) (host testConfig fresh) =
    some [.bytes [0x7D#8, 0x5D#8, 0x7D#8, 0x5D#8, 0x7D#8, 0x5E#8, 0x7D#8, 0x5E#8]] := by decide

/-- V-D6. -/
theorem test_destuff_lone : results (.destuff [0x7D#8, 0x7D#8, 0x5E#8]) (host testConfig fresh) =
    some [.destuffed [0x7D#8, 0x7E#8] false] := by decide

/-- V-D12. -/
theorem test_destuff_tail : results (.destuff [0x7D#8, 0x5E#8, 0x7D#8]) (host testConfig fresh) =
    some [.destuffed [0x7E#8, 0x7D#8] true] := by decide

/-- V-E4: the address byte is escaped. -/
theorem test_encode : results (.encode 31 0x01#8 [0xAA#8]) (host testConfig fresh) =
    some [.bytes [0x7E#8, 0x7D#8, 0x5D#8, 0x03#8, 0x00#8, 0x01#8, 0xAA#8, 0xB5#8, 0x90#8, 0x7E#8]] := by decide

/-- V-E15: id 63 is in the domain. -/
theorem test_encode_tooLarge : results (.encode 63 0x00#8 (List.replicate 251 0x00#8)) (host testConfig fresh) =
    some [.error .frameTooLarge] := by decide +kernel

/-- R230's example. -/
theorem test_decReset : instanceAfter (.decReset 0) (host testConfig ⟨.payload, [0x7E#8, 0x41#8], false⟩) = some fresh := by decide

/-- D-G: bytes stored before the first FLAG head the frame. -/
theorem test_feed_prefix : results (.feed 0 ([0x11#8, 0x7D#8, 0x22#8, 0x7E#8] ++ E1)) (host testConfig fresh) =
    some [.frames [[0x7D#8, 0x22#8] ++ E1] false] := by decide +kernel

/-- D-J: a FLAG in `Confirming` with a non-empty buffer is not stored. -/
theorem test_feed_confirming : instanceAfter (.feed 0 [0x7E#8, 0x7D#8, 0x5E#8, 0x7E#8]) (host testConfig fresh) =
    some ⟨.confirmed, [0x7E#8, 0x7D#8, 0x5E#8], false⟩ := by decide

/-- V-V8 (`[7E 00 00 7E]`, R180). -/
theorem test_validate_empty : results (.validate [0x7E#8, 0x00#8, 0x00#8, 0x7E#8]) (host testConfig fresh) =
    some [.bytes []] := by decide

/-- A trailing escape is BadFcs (R182). -/
theorem test_validate_tail : results (.validate [0x7E#8, 0x41#8, 0x7D#8, 0x7E#8]) (host testConfig fresh) =
    some [.error .badFcs] := by decide

/-- R190's corner case. -/
theorem test_parseHeader : results (.parseHeader [0x01#8, 0x02#8, 0x03#8, 0x04#8]) (host testConfig fresh) =
    some [.header 0x01#8 0x02#8 0x03#8 0x04#8 []] := by decide

/-- R151: the overflow row looks at no byte; with the parameter false the byte is processed from reset. -/
theorem test_rxOvf : instanceAfter (.rxOvf 0 0x7E#8) (host (withCap 2 true) ⟨.payload, [0x7E#8, 0x41#8], false⟩) = some fresh ∧
    instanceAfter (.rxOvf 0 0x7E#8) (host (withCap 2 false) ⟨.payload, [0x7E#8, 0x41#8], false⟩) =
      some ⟨.confirming, [0x7E#8], false⟩ := by decide

/-- R154: a FLAG after an escape is data. -/
theorem test_rxEscd : instanceAfter (.rxEscd 0 0x7E#8) (host testConfig ⟨.payload, [0x7E#8, 0x7D#8], true⟩) =
    some ⟨.payload, [0x7E#8, 0x7D#8, 0x7E#8], false⟩ := by decide

/-- R158: the frame goes out whole. -/
theorem test_rxPayF : results (.rxPayF 0) (host testConfig ⟨.payload, [0x7E#8, 0x41#8], false⟩) =
    some [.frames [[0x7E#8, 0x41#8, 0x7E#8]] false] := by decide

/-- R74 with R71: FEED's record under an overflow, and an error's. -/
theorem test_responseRecord : responseRecord (.frames [[0x41#8]] true) =
      some [0x05#8, 0x01#8, 0#8, 0#8, 0#8, 0x01#8, 0#8, 0#8, 0#8, 0x41#8] ∧
    responseRecord (.error .badFcs) = some [0x03#8] := by decide

/-! ### Witnesses: a state and operands that meet the hypotheses of each statement -/

theorem witness_FcsOperation : ([0x05#8] : Bytes).length < 2 ^ 32 := by decide

theorem witness_StuffOperation : ([0x7E#8] : Bytes).length < 2 ^ 32 := by decide

theorem witness_StufferGuarantees : Machine.stuff [0x41#8, 0x7E#8, 0x42#8] = [0x41#8] ++ ESCAPE :: [0x5E#8, 0x42#8] := by decide

theorem witness_DestuffOperation : ([0x7D#8] : Bytes).length < 2 ^ 32 := by decide

theorem witness_DestuffOtherBytes : (0x5C#8 ≠ 0x5E#8 ∧ 0x5C#8 ≠ 0x5D#8) ∧ (0x5F#8 ≠ 0x5E#8 ∧ 0x5F#8 ≠ 0x5D#8) ∧
    0x7E#8 ≠ 0x7D#8 ∧ 0x7C#8 ≠ 0x7D#8 := by decide

theorem witness_StufferAndDestufferRows : (0x7C#8 ≠ 0x7E#8 ∧ 0x7C#8 ≠ 0x7D#8) ∧ (0x7F#8 ≠ 0x7E#8 ∧ 0x7F#8 ≠ 0x7D#8) ∧
    (0x5C#8 ≠ 0x5E#8 ∧ 0x5C#8 ≠ 0x5D#8) ∧ (0x5F#8 ≠ 0x5E#8 ∧ 0x5F#8 ≠ 0x5D#8) ∧ 0x7E#8 ≠ 0x7D#8 := by decide

theorem witness_EncodeAddress : 64 ≤ 64 ∧ 63 ≤ 63 ∧ 62 ≤ 62 := by decide

theorem witness_AddressByteForm : 62 ≤ 62 ∧ 63 ≤ 63 ∧ addressByte 63 = addressByte 63 := by decide

/-- The largest payload that fits, the smallest that does not, and the largest id a record carries. -/
theorem witness_EncodeOperation : (63 ≤ 63 ∧ 4 + (List.replicate 250 0x00#8).length + 2 ≤ testConfig.maxRawFrame) ∧
    64 ≤ 64 ∧ (63 ≤ 63 ∧ testConfig.maxRawFrame < 4 + (List.replicate 251 0x00#8).length + 2) ∧
    (255 < 256 ∧ (List.replicate 251 0x00#8).length < 2 ^ 32) ∧ (host testConfig fresh).cfg = testConfig := by decide +kernel

theorem witness_EncodeCheckOrder : (host testConfig fresh).cfg.maxRawFrame = Config.hardware.maxRawFrame ∧ 63 ≤ 63 ∧
    (List.replicate 300 0x00#8).length = 300 := ⟨rfl, by decide, List.length_replicate⟩

theorem encode_E1 (s : State) (h : s.cfg = testConfig) :
    exec (.encode 1 0x13#8 [0x01#8, 0x02#8, 0x03#8]) s = .next (returned s (.bytes E1)) := by
  have e : encodeFrame testConfig 1 0x13#8 [0x01#8, 0x02#8, 0x03#8] = .ok E1 := by decide +kernel
  show execEncode 1 0x13#8 [0x01#8, 0x02#8, 0x03#8] s = _
  rw [execEncode, h, e]
  rfl

theorem witness_EncodeOutputProperties : exec (.encode 1 0x13#8 [0x01#8, 0x02#8, 0x03#8]) (host testConfig fresh) =
    .next (returned (host testConfig fresh) (.bytes E1)) := encode_E1 _ rfl

theorem witness_EncodeThenValidate : 63 ≤ 63 ∧
    4 + (List.replicate 250 0x00#8).length + 2 ≤ (host testConfig fresh).cfg.maxRawFrame := by decide +kernel

/-- Room for one byte; a frame that fills the buffer exactly; a full buffer under both settings. -/
theorem witness_RxOverflow :
    (Ready (host (withCap 3 true) ⟨.payload, [0x7E#8, 0x41#8], false⟩) 0 ⟨.payload, [0x7E#8, 0x41#8], false⟩ ∧
      [0x7E#8, 0x41#8].length < (withCap 3 true).bufCap ∧ [0x7E#8, 0x41#8].length + 1 = (withCap 3 true).bufCap) ∧
    (Ready (host (withCap 2 true) ⟨.payload, [0x7E#8, 0x41#8], false⟩) 0 ⟨.payload, [0x7E#8, 0x41#8], false⟩ ∧
      [0x7E#8, 0x41#8].length ≥ (withCap 2 true).bufCap ∧ (withCap 2 true).overflowDropsRestOfChunk = true) ∧
    (Ready (host (withCap 2 false) ⟨.idle, [0x7D#8, 0x7D#8], true⟩) 0 ⟨.idle, [0x7D#8, 0x7D#8], true⟩ ∧
      [0x7D#8, 0x7D#8].length ≥ (withCap 2 false).bufCap ∧ (withCap 2 false).overflowDropsRestOfChunk = false) :=
  ⟨⟨ready_host _ _, by decide⟩, ⟨ready_host _ _, by decide⟩, ⟨ready_host _ _, by decide⟩⟩

/-- Room for one byte, and for two. -/
theorem witness_RxEscapeByte : Ready (host (withCap 2 true) ⟨.idle, [0x7D#8], true⟩) 0 ⟨.idle, [0x7D#8], true⟩ ∧
    [0x7D#8].length < (withCap 2 true).bufCap ∧ Ready (host (withCap 2 true) fresh) 0 fresh ∧
    fresh.buf.length + 1 < (withCap 2 true).bufCap ∧ 0x7E#8 ≠ 0x7D#8 :=
  ⟨ready_host _ _, by decide, ready_host _ _, by decide⟩

theorem witness_RxEscapedByte : Ready (host (withCap 2 true) ⟨.idle, [0x7D#8], true⟩) 0 ⟨.idle, [0x7D#8], true⟩ ∧
    [0x7D#8].length < (withCap 2 true).bufCap ∧ 0x7E#8 ≠ 0x7D#8 := ⟨ready_host _ _, by decide⟩

theorem witness_RxIdleRows : Ready (host (withCap 1 true) fresh) 0 fresh ∧ fresh.buf.length < (withCap 1 true).bufCap ∧
    fresh.esc = false ∧ fresh.st = .idle ∧ 0x7F#8 ≠ 0x7E#8 ∧ 0x7F#8 ≠ 0x7D#8 := ⟨ready_host _ _, by decide⟩

/-- The empty buffer and a one-byte buffer; and RX_PAY_F's own next state. -/
theorem witness_RxConfirmingRows :
    (Ready (host (withCap 1 true) afterFrame) 0 afterFrame ∧ afterFrame.buf.length < (withCap 1 true).bufCap ∧
      afterFrame.esc = false ∧ afterFrame.st = .confirming ∧ afterFrame.buf.length = 0) ∧
    (Ready (host (withCap 2 true) ⟨.confirming, [0x7E#8], false⟩) 0 ⟨.confirming, [0x7E#8], false⟩ ∧
      [0x7E#8].length < (withCap 2 true).bufCap ∧ [0x7E#8].length > 0 ∧ 0x7F#8 ≠ 0x7E#8 ∧ 0x7F#8 ≠ 0x7D#8) ∧
    ((rxStep testConfig ⟨.payload, [0x7E#8, 0x41#8], false⟩ 0x7E#8).dec.st = .confirming ∧
      (rxStep testConfig ⟨.payload, [0x7E#8, 0x41#8], false⟩ 0x7E#8).dec.buf = []) :=
  ⟨⟨ready_host _ _, by decide⟩, ⟨ready_host _ _, by decide⟩, by decide⟩

theorem witness_RxConfirmedRows : Ready (host (withCap 2 true) ⟨.confirmed, [0x7E#8], false⟩) 0 ⟨.confirmed, [0x7E#8], false⟩ ∧
    [0x7E#8].length < (withCap 2 true).bufCap ∧ 0x7C#8 ≠ 0x7E#8 ∧ 0x7C#8 ≠ 0x7D#8 := ⟨ready_host _ _, by decide⟩

theorem witness_RxPayloadRows :
    Ready (host (withCap 3 true) ⟨.payload, [0x7E#8, 0x41#8], false⟩) 0 ⟨.payload, [0x7E#8, 0x41#8], false⟩ ∧
    [0x7E#8, 0x41#8].length < (withCap 3 true).bufCap ∧ 0x7C#8 ≠ 0x7E#8 ∧ 0x7C#8 ≠ 0x7D#8 := ⟨ready_host _ _, by decide⟩

/-- RX_PAY_F for a FLAG that meets `Idle`. -/
theorem witness_RowSelection : Ready (host testConfig fresh) 0 fresh ∧ (rxInstr .payF 0 0x7E#8).wellFormed = true ∧
    encode (rxInstr .payF 0 0x7E#8) = .rxByte 0 0x7E#8 ∧ ¬ RowCondition (host testConfig fresh).cfg fresh 0x7E#8 .payF :=
  ⟨ready_host _ _, by decide, by decide, fun h => absurd h.2.2.1 (by decide)⟩

theorem witness_RowIsOneByteFeed : Ready (host testConfig fresh) 0 fresh := ready_host _ _

/-- One row of each group, and the row of each equation on `st`, `esc` and the frames. -/
theorem witness_RowFrame : rxRowOf testConfig ⟨.payload, [0x7E#8, 0x41#8], false⟩ 0x42#8 = .payO ∧
    rxRowOf testConfig fresh 0x41#8 = .idleO ∧ rxRowOf testConfig ⟨.confirming, [0x7E#8], false⟩ 0x41#8 = .cfmgO ∧
    RxRow.payO ≠ .ovf ∧ RxRow.idleO ≠ .ovf ∧ RxRow.cfmgO ≠ .ovf ∧
    RxRow.payO ∈ [RxRow.esc, .escd, .idleF, .cfmgF0, .cfmdF, .cfmdO, .payO] ∧ RxRow.idleO ∈ [RxRow.idleO, .cfmgF1] ∧
    RxRow.cfmgO ∈ [RxRow.cfmgO, .payF] ∧ RxRow.payO ∈ [RxRow.esc, .escd, .idleO, .cfmdF, .payO] ∧
    RxRow.payO ∉ [RxRow.esc, .escd] ∧ RxRow.payO ≠ .payF := by decide

theorem witness_FeedOperation : Ready (host testConfig fresh) 0 fresh ∧ (255 < 256 ∧ E1.length < 2 ^ 32) ∧
    (Ready (host (withCap 1 true) ⟨.idle, [0x7D#8], true⟩) 0 ⟨.idle, [0x7D#8], true⟩ ∧
      [0x7D#8].length ≥ (withCap 1 true).bufCap ∧ (withCap 1 true).overflowDropsRestOfChunk = true) ∧
    (host testConfig fresh).decoders[2]? = none ∧
    (opened.decoders[0]? = some fresh ∧ ∃ o ∈ opened.inFlight, o.d = 0) ∧ (host testConfig fresh).cfg = testConfig :=
  ⟨ready_host _ _, by decide, ⟨ready_host _ _, by decide⟩, rfl, ⟨rfl, _, List.mem_singleton.2 rfl, rfl⟩, rfl⟩

/-- The parameter false, and no overflow under the parameter true. -/
theorem witness_StreamingEquivalence : Ready (host (withCap 2 false) fresh) 0 fresh ∧
    (host (withCap 2 false) fresh).cfg.overflowDropsRestOfChunk = false ∧ Ready (host (withCap 2 true) fresh) 0 fresh ∧
    (SpecText.feed (withCap 2 true) fresh [[0x7E#8], [0x7E#8, 0x41#8]].flatten).2.2 = false :=
  ⟨ready_host _ _, rfl, ready_host _ _, by decide⟩

theorem encodable_E1 : Encodable testConfig 1 [0x01#8, 0x02#8, 0x03#8] := ⟨by decide, by decide⟩

theorem ordinary_E1 : HasOrdinaryByte (SpecText.raw testConfig 1 0x13#8 [0x01#8, 0x02#8, 0x03#8]) :=
  ⟨0x05#8, List.mem_cons_self, by decide, by decide⟩

theorem wire_E1 : wire testConfig 1 0x13#8 [0x01#8, 0x02#8, 0x03#8] = E1 := by decide +kernel

theorem witness_FirstFrameIsLost : Ready (host testConfig fresh) 0 fresh ∧
    Encodable (host testConfig fresh).cfg 1 [0x01#8, 0x02#8, 0x03#8] := ⟨ready_host _ _, encodable_E1⟩

/-- A frame that fills the buffer exactly (11 bytes). -/
theorem witness_BackToBackFrames :
    (∀ o ∈ [((1 : Nat), 0x13#8, [0x01#8, 0x02#8, 0x03#8])], Encodable (withCap 11 true) o.1 o.2.2 ∧
      HasOrdinaryByte (SpecText.raw (withCap 11 true) o.1 o.2.1 o.2.2) ∧
      (wire (withCap 11 true) o.1 o.2.1 o.2.2).length ≤ (withCap 11 true).bufCap) ∧
    Ready (host (withCap 11 true) afterFrame) 0 afterFrame ∧ Ready (host (withCap 11 true) fresh) 0 fresh := by
  refine ⟨?_, ready_host _ _, ready_host _ _⟩
  intro o ho
  rw [List.mem_singleton.1 ho]
  exact ⟨⟨by decide, by decide⟩, ⟨0x05#8, List.mem_cons_self, by decide, by decide⟩, by decide +kernel⟩

/-- A first frame whose raw bytes begin with ESCAPE (id 31) and hold a FLAG after the first ordinary byte. -/
theorem witness_LostFrameEscapePairs : Ready (host testConfig fresh) 0 fresh ∧ Encodable testConfig 31 [0x7E#8] ∧
    Encodable testConfig 1 [0x01#8, 0x02#8, 0x03#8] ∧
    SpecText.raw testConfig 31 0x13#8 [0x7E#8] = [0x7D#8] ++ 0x03#8 :: (SpecText.raw testConfig 31 0x13#8 [0x7E#8]).drop 2 ∧
    (∀ b ∈ [0x7D#8], b = FLAG ∨ b = ESCAPE) ∧ 0x03#8 ≠ FLAG ∧ 0x03#8 ≠ ESCAPE ∧
    HasOrdinaryByte (SpecText.raw testConfig 1 0x13#8 [0x01#8, 0x02#8, 0x03#8]) ∧
    (wire testConfig 31 0x13#8 [0x7E#8]).length + (wire testConfig 1 0x13#8 [0x01#8, 0x02#8, 0x03#8]).length ≤
      testConfig.bufCap :=
  ⟨ready_host _ _, ⟨by decide, by decide⟩, encodable_E1, by decide +kernel, by decide, by decide, by decide, ordinary_E1,
    by decide +kernel⟩

theorem witness_DecoderFrameShape :
    (host testConfig ⟨.payload, [0x7E#8, 0x41#8], false⟩).wf = true ∧
    Ready (host testConfig ⟨.payload, [0x7E#8, 0x41#8], false⟩) 0 ⟨.payload, [0x7E#8, 0x41#8], false⟩ ∧
    exec (.feed 0 [0x7E#8]) (host testConfig ⟨.payload, [0x7E#8, 0x41#8], false⟩) =
      .next (served (host testConfig ⟨.payload, [0x7E#8, 0x41#8], false⟩) 0 afterFrame
        (.frames [[0x7E#8, 0x41#8, 0x7E#8]] false)) :=
  ⟨by decide, ready_host _ _, rfl⟩

theorem witness_OverflowContainment :
    (withCap 11 true).overflowDropsRestOfChunk = true ∧
    Ready (host (withCap 11 true) ⟨.idle, List.replicate 11 0x7D#8, true⟩) 0 ⟨.idle, List.replicate 11 0x7D#8, true⟩ ∧
    exec (.feed 0 [0x41#8]) (host (withCap 11 true) ⟨.idle, List.replicate 11 0x7D#8, true⟩) =
      .next (served (host (withCap 11 true) ⟨.idle, List.replicate 11 0x7D#8, true⟩) 0 fresh (.frames [] true)) ∧
    Encodable (withCap 11 true) 1 [0x01#8, 0x02#8, 0x03#8] ∧
    (wire (withCap 11 true) 1 0x13#8 [0x01#8, 0x02#8, 0x03#8]).length ≤ (withCap 11 true).bufCap :=
  ⟨rfl, ready_host _ _, rfl, ⟨by decide, by decide⟩, by decide +kernel⟩

theorem witness_ValidateOperation : E1.length < 2 ^ 32 ∧ ([] : Bytes).head? ≠ some 0x7E#8 ∧
    ([0x41#8] : Bytes).getLast? ≠ some 0x7E#8 ∧ Encodable testConfig 1 [0x01#8, 0x02#8, 0x03#8] ∧ 1 ≤ 8 :=
  ⟨by decide, by decide, by decide, encodable_E1, by decide⟩

theorem witness_ValidateDelimiterForms : Encodable testConfig 1 [0x01#8, 0x02#8, 0x03#8] ∧ E1.drop 1 ∈
    [E1, (E1.drop 1).dropLast, E1.drop 1, E1.dropLast] := ⟨encodable_E1, by decide⟩

theorem witness_ValidateRejectsByteChange : Encodable testConfig 1 [0x01#8, 0x02#8, 0x03#8] ∧
    SpecText.raw testConfig 1 0x13#8 [0x01#8, 0x02#8, 0x03#8] =
      [] ++ 0x05#8 :: (SpecText.raw testConfig 1 0x13#8 [0x01#8, 0x02#8, 0x03#8]).drop 1 ∧ 0x05#8 ≠ 0x04#8 :=
  ⟨encodable_E1, by decide +kernel, by decide⟩

theorem witness_ParseHeaderOperation : ([0x05#8, 0x03#8, 0x00#8] : Bytes).length < 4 ∧
    4 ≤ ([0x05#8, 0x03#8, 0x00#8, 0x13#8] : Bytes).length ∧ ([0x05#8] : Bytes).length < 2 ^ 32 := by decide

theorem witness_EndToEnd : Ready (host (withCap 11 true) fresh) 0 fresh ∧
    Encodable (withCap 11 true) 1 [0x01#8, 0x02#8, 0x03#8] ∧
    HasOrdinaryByte (SpecText.raw (withCap 11 true) 1 0x13#8 [0x01#8, 0x02#8, 0x03#8]) ∧
    (wire (withCap 11 true) 1 0x13#8 [0x01#8, 0x02#8, 0x03#8]).length ≤ (withCap 11 true).bufCap ∧
    [[0x7E#8, 0x7E#8], [], E1.drop 1].flatten = 0x7E#8 :: wire (withCap 11 true) 1 0x13#8 [0x01#8, 0x02#8, 0x03#8] :=
  ⟨ready_host _ _, ⟨by decide, by decide⟩, ⟨0x05#8, List.mem_cons_self, by decide, by decide⟩, by decide +kernel,
    by decide +kernel⟩

theorem witness_DecResetOperation : Ready (host (withCap 3 true) fresh) 0 fresh ∧ 255 < 256 ∧ 1 ≠ 0 ∧
    (host testConfig fresh).decoders[2]? = none ∧ 3 ≤ (host (withCap 3 true) fresh).cfg.bufCap :=
  ⟨ready_host _ _, by decide, by decide, rfl, by decide⟩

theorem witness_ResetValues : State.reset.decoders[0]? = some fresh ∧
    exec (.decReset 1) (host testConfig fresh) = .next (served (host testConfig fresh) 1 fresh .done) ∧
    (withCap 1 true).overflowDropsRestOfChunk = true ∧ [0x7D#8].length ≥ (withCap 1 true).bufCap :=
  ⟨rfl, rfl, rfl, by decide⟩

theorem witness_StepKeepsWellFormed : (asked (.issue (.record [0x06#8, 0x00#8]))).wf = true ∧
    step (asked (.issue (.record [0x06#8, 0x00#8]))) = .next (served (host testConfig fresh) 0 fresh .done) :=
  ⟨by decide, rfl⟩

theorem witness_StepKeepsParameters :
    step (asked (.issue (.record [0x06#8, 0x00#8]))) = .next (served (host testConfig fresh) 0 fresh .done) := rfl

theorem witness_PureOperations : instanceOf (.crcStep 0 0) = none ∧ (host testConfig fresh).cfg = testConfig := ⟨rfl, rfl⟩

theorem witness_InstanceFrame : instanceOf (.decReset 0) = some 0 ∧
    exec (.decReset 0) (host testConfig fresh) = .next (served (host testConfig fresh) 0 fresh .done) ∧ 1 ≠ 0 ∧
    (host testConfig fresh).decoders[1]? = some fresh := ⟨rfl, rfl, by decide, rfl⟩

/-- Two instances, and a pure operation beside one. -/
theorem witness_OperationsCommute : instanceOf (.decReset 0) ≠ instanceOf (.decReset 1) ∧ instanceOf (.stuff []) = none ∧
    exec (.decReset 0) (host testConfig fresh) = .next (served (host testConfig fresh) 0 fresh .done) ∧
    exec (.decReset 1) (host testConfig fresh) = .next (served (host testConfig fresh) 1 fresh .done) ∧
    exec (.stuff []) (host testConfig fresh) = .next (returned (host testConfig fresh) (.bytes [])) :=
  ⟨by decide, rfl, rfl, rfl, rfl⟩

/-- The two ends of the unassigned codes; the first id that names no instance; each form of a wrong length, one byte short or
one long; and the empty record. -/
theorem witness_IllFormedCommandsRefused :
    (asked (.issue (.record (0x00#8 :: [])))).inbox = [.issue (.record (0x00#8 :: []))] ∧ 0x0A#8 ≤ 0x0A#8 ∧ 0x0A#8 ≤ 0xFF#8 ∧
    ((host testConfig fresh).wf = true ∧ (host testConfig fresh).cfg.nDecoders ≤ 2) ∧
    (1 < 2 ^ 32 ∧ ([] : Bytes).length ≠ 1 ∧ 0 < 2 ^ 32 ∧ [0x41#8].length ≠ 0) ∧ 0x09#8 ∈ [0x03#8, 0x04#8, 0x08#8, 0x09#8] ∧
    ([0x00#8, 0x00#8] : Bytes).length ≠ 3 ∧ ([0#8, 0#8, 0#8, 0#8] : Bytes).length ≠ 3 ∧ ([] : Bytes).length ≠ 1 ∧
    (∀ i : Instr, i.wellFormed = true → encode i ≠ .record []) ∧
    (∀ c : Byte, ([] : Bytes).head? = some c → 0x01#8 ≤ c ∧ c ≤ 0x09#8) := by
  refine ⟨rfl, by decide, by decide, by decide, by decide, by decide, by decide, by decide, by decide, ?_, by simp⟩
  intro i _
  cases i <;> simp [encode]

theorem witness_ReentrantFeedFaults : opened.decoders[0]? = some fresh ∧ (∃ o ∈ opened.inFlight, o.d = 0) ∧
    exec (.decReset 1) opened = .next (served opened 1 fresh .done) ∧ Ready opened 1 fresh ∧ Ready (host testConfig fresh) 0 fresh :=
  ⟨rfl, ⟨_, List.mem_singleton.2 rfl, rfl⟩, rfl, ⟨rfl, by simp [opened]⟩, ready_host _ _⟩

theorem witness_FaultsOnlyWhenReentrant : exec (.feed 0 []) opened = .fault (.reentrantFeed 0) := rfl

theorem witness_CommandRoundTrip : ∀ i ∈ [Instr.crcStep 0 0, .fcs 0 [0x41#8], .stuff [], .destuff [], .encode 255 0 [], .decReset 255,
    .feed 255 [], .validate [], .parseHeader []], i.isCommand = true ∧ i.wellFormed = true := by decide

theorem witness_DecodedRecordIsItsEncoding : decodeRecord [0x06#8, 0xFF#8] = .ok (.decReset 255) := by decide

theorem witness_ByteRowRoundTrip : ∀ i ∈ [Instr.rxOvf 0 0x7E#8, .rxEscd 0 0x7E#8, .rxPayO 3 0x7F#8, .txOther 0x7C#8, .dsLone 0x5F#8,
    .dsOther 0x7E#8], i.isCommand = false ∧ i.wellFormed = true := by decide

theorem witness_StepRunsDecoded : (asked (.issue (.record [0x06#8, 0x00#8]))).inbox = .issue (.record [0x06#8, 0x00#8]) :: [] ∧
    decodeRecord [0x06#8, 0x00#8] = .ok (.decReset 0) ∧
    (asked (.issue (.rxByte 0 0x7E#8))).inbox = .issue (.rxByte 0 0x7E#8) :: [] ∧
    (asked (.issue (.rxByte 0 0x7E#8))).decoders[0]? = some fresh ∧
    (asked (.issue (.txByte 0x7E#8))).inbox = .issue (.txByte 0x7E#8) :: [] ∧
    (asked (.issue (.dsByte 0x7D#8 none))).inbox = .issue (.dsByte 0x7D#8 none) :: [] ∧ (host testConfig fresh).inbox = [] ∧
    (Instr.decReset 0).isCommand = true ∧ (Instr.decReset 0).wellFormed = true ∧
    (asked (.issue (encode (.decReset 0)))).inbox = .issue (encode (.decReset 0)) :: [] :=
  ⟨rfl, by decide, rfl, rfl, rfl, rfl, rfl, rfl, by decide, rfl⟩

theorem witness_ResponseRecords : ([0x41#8] : Bytes).length < 2 ^ 32 ∧ ([E1] : List Bytes).length < 2 ^ 32 ∧
    (∀ f ∈ [E1], f.length < 2 ^ 32) := by decide

end Sys2Proof.Tests
end

section
/-! Proofs for spec/10_state.md: the reset values of an instance (R30). -/

namespace Sys2Proof.Proofs

open Sys2Proof.Machine

/-- The reset state of an instance has R30's values. -/
theorem decoder_reset_values : Decoder.reset.st = .idle ∧ Decoder.reset.buf = [] ∧ Decoder.reset.cursor = 0 ∧
    Decoder.reset.esc = false := ⟨rfl, rfl, rfl, rfl⟩

/-- Every instance at the start of a run is in its reset state. -/
theorem eq_reset_of_reset_decoders {d : Nat} {D : Decoder} (h : State.reset.decoders[d]? = some D) : D = Decoder.reset :=
  List.eq_of_mem_replicate (List.mem_of_getElem? h)

/-- The start of a run has one instance for each id below N_DECODERS (R20). -/
theorem reset_decoders_length : State.reset.decoders.length = State.reset.cfg.nDecoders := List.length_replicate

theorem exec_decReset (d : Nat) (s : State) : exec (.decReset d) s = execDecReset d s := rfl

/-- When DEC_RESET completes, the instance it names is in its reset state. -/
theorem exec_decReset_next {s t : State} {d : Nat} (h : exec (.decReset d) s = .next t) :
    t.decoders[d]? = some Decoder.reset := by
  rw [exec_decReset] at h
  obtain ⟨D, hD, ho, -⟩ := withDecoder_next h
  rw [execDecReset_ready hD ho] at h
  obtain rfl := Host.Outcome.next.inj h
  have hd : d < s.decoders.length := (List.getElem?_eq_some_iff.1 hD).1
  simp [hd]

/-- Settles O45: at creation, after DEC_RESET and after a dropping overflow the instance is `Decoder.reset`, which has R30's
values. -/
theorem resetValues : Obligations.ResetValues := by
  refine ⟨?creation, ?ids, ?decReset, ?overflow⟩
  case creation =>
    intro d D h
    rw [eq_reset_of_reset_decoders h]
    exact decoder_reset_values
  case ids =>
    intro d
    simp [← reset_decoders_length]
  case decReset =>
    intro s t d h
    exact ⟨Decoder.reset, exec_decReset_next h, decoder_reset_values⟩
  case overflow =>
    intro cfg D b hdrop hfull
    rw [rxStep_full_drop hfull hdrop]
    exact decoder_reset_values

end Sys2Proof.Proofs
end

section
/-! Facts about the fields of a record and about the command decoder (spec/30_encoding.md R73, R75): the little-endian fields in
the spec's words, and everything the decoder can answer. -/

namespace Sys2Proof.Proofs

open Sys2Proof.SpecText (le16 le32)

/-! ### Fields -/

theorem u16Field_eq_le16 (v : U16) : u16Field v = le16 v := by
  simp only [u16Field, lowByte, highByte, le16, List.cons.injEq, and_true]
  constructor <;> apply BitVec.eq_of_toNat_eq <;> simp [Nat.shiftRight_eq_div_pow]

theorem readU16_toNat (b0 b1 : Byte) : (readU16 b0 b1).toNat = 256 * b1.toNat + b0.toNat := by
  rw [readU16, BitVec.toNat_append, ← Nat.shiftLeft_add_eq_or_of_lt b0.isLt, Nat.shiftLeft_eq, Nat.mul_comm]

theorem u16Field_readU16 (b0 b1 : Byte) : u16Field (readU16 b0 b1) = [b0, b1] := by
  have h0 := b0.isLt
  have h1 := b1.isLt
  simp only [u16Field_eq_le16, le16, readU16_toNat, List.cons.injEq, and_true]
  constructor <;> apply BitVec.eq_of_toNat_eq <;> rw [BitVec.toNat_ofNat] <;> omega

theorem u32Field_ofNat (n : Nat) : u32Field (BitVec.ofNat 32 n) = le32 n := by
  simp only [u32Field, le32, List.cons.injEq, and_true]
  refine ⟨?_, ?_, ?_, ?_⟩ <;> apply BitVec.eq_of_toNat_eq <;> simp [Nat.shiftRight_eq_div_pow] <;> omega

theorem bytesField_eq (data : Bytes) : bytesField data = le32 data.length ++ data := by
  rw [bytesField, u32Field_ofNat]

theorem readU32_lt (b0 b1 b2 b3 : Byte) : readU32 b0 b1 b2 b3 < 2 ^ 32 := by
  have h0 := b0.isLt
  have h1 := b1.isLt
  have h2 := b2.isLt
  have h3 := b3.isLt
  unfold readU32
  omega

theorem le32_readU32 (b0 b1 b2 b3 : Byte) : le32 (readU32 b0 b1 b2 b3) = [b0, b1, b2, b3] := by
  have h0 := b0.isLt
  have h1 := b1.isLt
  have h2 := b2.isLt
  have h3 := b3.isLt
  simp only [le32, readU32, List.cons.injEq, and_true]
  refine ⟨?_, ?_, ?_, ?_⟩ <;> apply BitVec.eq_of_toNat_eq <;> rw [BitVec.toNat_ofNat] <;> omega

/-- A length that fits its field is read back. -/
theorem readU32_le32 {n : Nat} (hn : n < 2 ^ 32) :
    readU32 (BitVec.ofNat 8 n) (BitVec.ofNat 8 (n / 256)) (BitVec.ofNat 8 (n / 65536)) (BitVec.ofNat 8 (n / 16777216)) = n := by
  simp only [readU32, BitVec.toNat_ofNat]
  omega

/-- A `bytes` field is read as far as its length says, if the bytes are there. -/
theorem readBytes_le32 {n : Nat} (hn : n < 2 ^ 32) (data : Bytes) :
    readBytes (le32 n ++ data) = if n ≤ data.length then some (data.take n, data.drop n) else none := by
  simp only [le32, List.cons_append, List.nil_append, readBytes, readU32_le32 hn]

/-- What is read as a `bytes` field is the field of its data. -/
theorem readBytes_some {r data rest : Bytes} (h : readBytes r = some (data, rest)) :
    r = bytesField data ++ rest ∧ fitsLength data = true := by
  revert h
  fun_cases readBytes r with
  | case1 b0 b1 b2 b3 r hlen =>
    intro h
    obtain ⟨rfl, rfl⟩ := Prod.mk.inj (Option.some.inj h)
    have hn := readU32_lt b0 b1 b2 b3
    have htake : (r.take (readU32 b0 b1 b2 b3)).length = readU32 b0 b1 b2 b3 := List.length_take_of_le hlen
    rw [bytesField_eq, fitsLength, htake, le32_readU32, decide_eq_true hn]
    simp
  | case2 b0 b1 b2 b3 r hlen => simp
  | case3 r hr => simp

/-! ### The command decoder -/

/-- The front of a record is no command, or a command that leaves bytes over: by R75 the record is ill-formed. -/
def FrontIllFormed (front : Except DecodeError (Instr × Bytes)) : Prop :=
  front = .error .illFormedRecord ∨ ∃ (i : Instr) (b : Byte) (rest : Bytes), front = .ok (i, b :: rest)

theorem decodeRecord_illFormed {r : Bytes} (h : FrontIllFormed (decodeFront r)) : decodeRecord r = .error .illFormedRecord := by
  rcases h with h | ⟨i, b, rest, h⟩ <;> simp [decodeRecord, h]

theorem decodeRecord_error_of_front {r : Bytes} {e : DecodeError} (h : decodeFront r = .error e) : decodeRecord r = .error e := by
  simp [decodeRecord, h]

/-- A `bytes` operand whose length field disagrees with the bytes after it. -/
theorem decodeBytesOperand_wrongLength {n : Nat} {data : Bytes} (hn : n < 2 ^ 32) (hlen : data.length ≠ n) (mk : Bytes → Instr) :
    FrontIllFormed (decodeBytesOperand (le32 n ++ data) mk) := by
  unfold decodeBytesOperand
  rw [readBytes_le32 hn]
  rcases Nat.lt_or_gt_of_ne hlen with hshort | hlong
  · rw [if_neg (by omega)]
    exact .inl rfl
  · rw [if_pos (by omega), List.drop_eq_getElem_cons hlong]
    exact .inr ⟨_, _, _, rfl⟩

/-- Everything `decodeBytesOperand` can do: reject, or yield the data whose field stands in front. -/
theorem decodeBytesOperand_cases (r : Bytes) (mk : Bytes → Instr) :
    decodeBytesOperand r mk = .error .illFormedRecord ∨
    ∃ data rest, r = bytesField data ++ rest ∧ fitsLength data = true ∧ decodeBytesOperand r mk = .ok (mk data, rest) := by
  unfold decodeBytesOperand
  cases hr : readBytes r with
  | none => exact .inl rfl
  | some p =>
    obtain ⟨hfield, hfits⟩ := readBytes_some hr
    exact .inr ⟨p.1, p.2, hfield, hfits, rfl⟩

/-- The first byte, if there is one, is a command code that R73 assigns. -/
def HeadAssigned (r : Bytes) : Prop := ∀ c : Byte, r.head? = some c → 0x01#8 ≤ c ∧ c ≤ 0x09#8

theorem headAssigned_cons {c : Byte} {r : Bytes} : HeadAssigned (c :: r) ↔ 0x01#8 ≤ c ∧ c ≤ 0x09#8 := by
  simp [HeadAssigned]

/-- `i` is a command whose record is `front`. -/
def IsRecordOf (front : Bytes) (i : Instr) : Prop :=
  i.isCommand = true ∧ i.wellFormed = true ∧ encode i = .record front

/-- What the command decoder can answer for the bytes `r`: ill-formed, unassigned, or the command whose record stands in
front. -/
inductive FrontAnswer (r : Bytes) : Except DecodeError (Instr × Bytes) → Prop
  | illFormed (hcode : HeadAssigned r) : FrontAnswer r (.error .illFormedRecord)
  | unassigned {code : Byte} (hhead : r.head? = some code) (hcode : ¬ HeadAssigned r) :
      FrontAnswer r (.error (.unassignedCode code))
  | command {front rest : Bytes} {i : Instr} (hcode : HeadAssigned r) (hr : r = front ++ rest) (hi : IsRecordOf front i) :
      FrontAnswer r (.ok (i, rest))

/-- A command that ends in a `bytes` operand, after the fixed bytes `pre`. -/
theorem frontAnswer_bytesOperand {pre r : Bytes} {mk : Bytes → Instr} (hcode : HeadAssigned (pre ++ r))
    (hmk : ∀ data, fitsLength data = true → IsRecordOf (pre ++ bytesField data) (mk data)) :
    FrontAnswer (pre ++ r) (decodeBytesOperand r mk) := by
  rcases decodeBytesOperand_cases r mk with h | ⟨data, rest, rfl, hfits, h⟩
  · rw [h]
    exact .illFormed hcode
  · rw [h]
    exact .command hcode (List.append_assoc ..).symm (hmk data hfits)

/-- An id or address operand read from one byte fits it again. -/
theorem fitsByte_toNat (b : Byte) : fitsByte b.toNat = true := decide_eq_true b.isLt

theorem headAssigned_of_toNat {code : Byte} {r : Bytes} (h1 : 1 ≤ code.toNat) (h9 : code.toNat ≤ 9) :
    HeadAssigned (code :: r) := headAssigned_cons.2 ⟨h1, h9⟩

/-- Everything the command decoder can do, row by row of R73's table. -/
theorem decodeFront_answer (r : Bytes) : FrontAnswer r (decodeFront r) := by
  fun_cases decodeFront r with
  | case1 => exact .illFormed (by simp [HeadAssigned])
  | case2 code h s0 s1 b rest =>
    obtain rfl : code = 0x01#8 := BitVec.eq_of_toNat_eq h
    exact .command (front := [0x01#8, s0, s1, b]) (headAssigned_cons.2 (by decide)) rfl
      ⟨rfl, rfl, by simp [encode, u16Field_readU16]⟩
  | case3 code r h => exact .illFormed (headAssigned_of_toNat (by omega) (by omega))
  | case4 code h s0 s1 r =>
    obtain rfl : code = 0x02#8 := BitVec.eq_of_toNat_eq h
    exact frontAnswer_bytesOperand (pre := [0x02#8, s0, s1]) (headAssigned_cons.2 (by decide))
      fun data hfits => ⟨rfl, hfits, by simp [encode, u16Field_readU16]⟩
  | case5 code r h => exact .illFormed (headAssigned_of_toNat (by omega) (by omega))
  | case6 code r h =>
    obtain rfl : code = 0x03#8 := BitVec.eq_of_toNat_eq h
    exact frontAnswer_bytesOperand (pre := [0x03#8]) (headAssigned_cons.2 (by decide)) fun data hfits => ⟨rfl, hfits, rfl⟩
  | case7 code r h =>
    obtain rfl : code = 0x04#8 := BitVec.eq_of_toNat_eq h
    exact frontAnswer_bytesOperand (pre := [0x04#8]) (headAssigned_cons.2 (by decide)) fun data hfits => ⟨rfl, hfits, rfl⟩
  | case8 code h addressId msgType r =>
    obtain rfl : code = 0x05#8 := BitVec.eq_of_toNat_eq h
    exact frontAnswer_bytesOperand (pre := [0x05#8, addressId, msgType]) (headAssigned_cons.2 (by decide))
      fun data hfits => ⟨rfl, by simp [Instr.wellFormed, fitsByte_toNat, hfits], by simp [encode]⟩
  | case9 code r h => exact .illFormed (headAssigned_of_toNat (by omega) (by omega))
  | case10 code h d rest =>
    obtain rfl : code = 0x06#8 := BitVec.eq_of_toNat_eq h
    exact .command (front := [0x06#8, d]) (headAssigned_cons.2 (by decide)) rfl ⟨rfl, fitsByte_toNat d, by simp [encode]⟩
  | case11 code r h => exact .illFormed (headAssigned_of_toNat (by omega) (by omega))
  | case12 code h d r =>
    obtain rfl : code = 0x07#8 := BitVec.eq_of_toNat_eq h
    exact frontAnswer_bytesOperand (pre := [0x07#8, d]) (headAssigned_cons.2 (by decide))
      fun data hfits => ⟨rfl, by simp [Instr.wellFormed, fitsByte_toNat, hfits], by simp [encode]⟩
  | case13 code r h => exact .illFormed (headAssigned_of_toNat (by omega) (by omega))
  | case14 code r h =>
    obtain rfl : code = 0x08#8 := BitVec.eq_of_toNat_eq h
    exact frontAnswer_bytesOperand (pre := [0x08#8]) (headAssigned_cons.2 (by decide)) fun data hfits => ⟨rfl, hfits, rfl⟩
  | case15 code r h =>
    obtain rfl : code = 0x09#8 := BitVec.eq_of_toNat_eq h
    exact frontAnswer_bytesOperand (pre := [0x09#8]) (headAssigned_cons.2 (by decide)) fun data hfits => ⟨rfl, hfits, rfl⟩
  | case16 code r =>
    refine .unassigned rfl fun hcode => ?_
    obtain ⟨h1, h9⟩ : 1 ≤ code.toNat ∧ code.toNat ≤ 9 := headAssigned_cons.1 hcode
    -- `fun_cases` says of each assigned code `code.toNat = k → False`, which `omega` does not read
    simp only [imp_false] at *
    omega

/-- A code that R73 does not assign is rejected by its name (R75). -/
theorem decodeRecord_unassigned {code : Byte} {r : Bytes} (hcode : ¬ HeadAssigned (code :: r)) :
    decodeRecord (code :: r) = .error (.unassignedCode code) := by
  refine decodeRecord_error_of_front ?_
  have h := decodeFront_answer (code :: r)
  generalize decodeFront (code :: r) = answer at h ⊢
  cases h with
  | illFormed hassigned => exact absurd hassigned hcode
  | unassigned hhead => rw [Option.some.inj hhead]
  | command hassigned => exact absurd hassigned hcode

/-- Bytes with an assigned code in front that are no command's record are ill-formed (R75). -/
theorem frontIllFormed_of_not_record {r : Bytes} (hcode : HeadAssigned r) (hr : ∀ i, ¬ IsRecordOf r i) :
    FrontIllFormed (decodeFront r) := by
  have h := decodeFront_answer r
  generalize decodeFront r = answer at h ⊢
  cases h with
  | illFormed => exact .inl rfl
  | unassigned _ hnot => exact absurd hcode hnot
  | @command front rest i _ hsplit hi =>
    subst hsplit
    cases rest with
    | nil => exact absurd (by simpa using hi) (hr i)
    | cons b rest => exact .inr ⟨i, b, rest, rfl⟩

/-! ### Records of a wrong length -/

/-- CRC_STEP's operands are three bytes (R73). -/
theorem frontIllFormed_crcStep {data : Bytes} (hlen : data.length ≠ 3) : FrontIllFormed (decodeFront (0x01#8 :: data)) := by
  match data, hlen with
  | [], _ | [_], _ | [_, _], _ => exact .inl rfl
  | _ :: _ :: _ :: _ :: _, _ => exact .inr ⟨_, _, _, rfl⟩

/-- DEC_RESET's operand is one byte (R73). -/
theorem frontIllFormed_decReset {data : Bytes} (hlen : data.length ≠ 1) : FrontIllFormed (decodeFront (0x06#8 :: data)) := by
  match data, hlen with
  | [], _ => exact .inl rfl
  | _ :: _ :: _, _ => exact .inr ⟨_, _, _, rfl⟩

/-- STUFF, DESTUFF, VALIDATE and PARSE_HEADER: the `bytes` operand alone (R73). -/
theorem frontIllFormed_bytesAlone {code : Byte} {n : Nat} {data : Bytes} (hcode : code ∈ [0x03#8, 0x04#8, 0x08#8, 0x09#8])
    (hn : n < 2 ^ 32) (hlen : data.length ≠ n) : FrontIllFormed (decodeFront (code :: (le32 n ++ data))) := by
  simp only [List.mem_cons, List.not_mem_nil, or_false] at hcode
  rcases hcode with rfl | rfl | rfl | rfl <;> exact decodeBytesOperand_wrongLength hn hlen _

/-- FCS and ENCODE: a `bytes` operand after two bytes (R73). -/
theorem frontIllFormed_fcs {n : Nat} {data : Bytes} (a b : Byte) (hn : n < 2 ^ 32) (hlen : data.length ≠ n) :
    FrontIllFormed (decodeFront (0x02#8 :: a :: b :: (le32 n ++ data))) := decodeBytesOperand_wrongLength hn hlen _

theorem frontIllFormed_encode {n : Nat} {data : Bytes} (a b : Byte) (hn : n < 2 ^ 32) (hlen : data.length ≠ n) :
    FrontIllFormed (decodeFront (0x05#8 :: a :: b :: (le32 n ++ data))) := decodeBytesOperand_wrongLength hn hlen _

/-- FEED: a `bytes` operand after the id (R73). -/
theorem frontIllFormed_feed {n : Nat} {data : Bytes} (a : Byte) (hn : n < 2 ^ 32) (hlen : data.length ≠ n) :
    FrontIllFormed (decodeFront (0x07#8 :: a :: (le32 n ++ data))) := decodeBytesOperand_wrongLength hn hlen _

end Sys2Proof.Proofs
end

section
/-! Proofs for spec/30_encoding.md R74: the response records. -/

namespace Sys2Proof.Proofs

open Sys2Proof.Machine
open Sys2Proof.SpecText (counted le32)

theorem countField_eq_le32 {n : Nat} (hn : n < 2 ^ 32) : countField n = le32 n := by
  rw [countField, if_pos hn, u32Field_ofNat]

theorem countedBytes_eq_counted {data : Bytes} (hn : data.length < 2 ^ 32) : countedBytes data = counted data := by
  rw [countedBytes, countField_eq_le32 hn, counted]

theorem flatMap_countedBytes {fs : List Bytes} (hfs : ∀ f ∈ fs, f.length < 2 ^ 32) :
    fs.flatMap countedBytes = fs.flatMap counted :=
  List.flatMap_congr fun f hf => countedBytes_eq_counted (hfs f hf)

/-- Settles O60: the count fields hold every count below 2^32, and R74's other bytes are the record's own. -/
theorem responseRecords : Obligations.ResponseRecords := by
  refine ⟨?value, ?bytes, ?destuffed, rfl, ?frames, ?header, rfl, rfl, rfl, rfl⟩
  case value =>
    intro v
    simp [responseRecord, u16Field_eq_le16]
  case bytes =>
    intro data hn
    simp [responseRecord, countedBytes_eq_counted hn]
  case destuffed =>
    intro data m hn
    simp [responseRecord, flagField, countedBytes_eq_counted hn]
  case frames =>
    intro fs ov hn hfs
    simp [responseRecord, feedStatus, countField_eq_le32 hn, flatMap_countedBytes hfs]
  case header =>
    intro a c i t p hn
    simp [responseRecord, countedBytes_eq_counted hn]

end Sys2Proof.Proofs
end

section
/-! Proofs for spec/30_encoding.md R75: the records and ids that are refused. -/

namespace Sys2Proof.Proofs

open Sys2Proof.Machine
open Sys2Proof.SpecText (le32)

/-- A record that the command decoder rejects is refused by the rejection's name. -/
theorem step_record_error {s : State} {r : Bytes} {rest : List Request} {e : DecodeError}
    (hs : s.inbox = .issue (.record r) :: rest) (hr : decodeRecord r = .error e) : step s = .refused (refusalOf e) := by
  simp [step, hs, fetchInstr, fetchContext, decodeFetch, hr]

theorem step_record_illFormed {s : State} {r : Bytes} {rest : List Request} (hs : s.inbox = .issue (.record r) :: rest)
    (hr : FrontIllFormed (decodeFront r)) : step s = .refused .illFormedRecord :=
  step_record_error hs (decodeRecord_illFormed hr)

/-- A well-formed state has one instance for each id below N_DECODERS (R20). -/
theorem decoders_length_of_wf {s : State} (h : s.wf = true) : s.decoders.length = s.cfg.nDecoders := by
  simp only [State.wf, Bool.and_eq_true, decide_eq_true_eq] at h
  obtain ⟨⟨⟨-, hlen⟩, -⟩, -⟩ := h
  exact hlen

theorem decoders_getElem?_eq_none {s : State} {d : Nat} (h : s.wf = true) (hd : s.cfg.nDecoders ≤ d) :
    s.decoders[d]? = none :=
  List.getElem?_eq_none (by rw [decoders_length_of_wf h]; exact hd)

theorem exec_decReset_absent {s : State} {d : Nat} (h : s.decoders[d]? = none) :
    exec (.decReset d) s = .refused (.noSuchInstance d) := withDecoder_none _ h

theorem exec_feed_absent {s : State} {d : Nat} (h : s.decoders[d]? = none) (chunk : Bytes) :
    exec (.feed d chunk) s = .refused (.noSuchInstance d) := withDecoder_none _ h

/-- Settles O52: the command decoder rejects a code outside R73's table by name, and everything else that is no command's record
as ill-formed; FEED and DEC_RESET find no instance at an id of N_DECODERS or more. -/
theorem illFormedCommandsRefused : Obligations.IllFormedCommandsRefused := by
  refine ⟨?code, ?absent, ?length, ?other⟩
  case code =>
    intro s code r rest hs hcode
    refine step_record_error hs (decodeRecord_unassigned fun hassigned => ?_)
    have h := headAssigned_cons.1 hassigned
    bv_omega
  case absent =>
    intro s d hwf hd
    have hnone := decoders_getElem?_eq_none hwf hd
    exact ⟨exec_decReset_absent hnone, exec_feed_absent hnone⟩
  case length =>
    intro s code a b n data rest hn hlen h
    rcases h with hs | hs | hs | ⟨hcode, hs⟩ | ⟨hlen3, hs⟩ | ⟨hlen1, hs⟩
    · exact step_record_illFormed hs (frontIllFormed_fcs a b hn hlen)
    · exact step_record_illFormed hs (frontIllFormed_encode a b hn hlen)
    · exact step_record_illFormed hs (frontIllFormed_feed a hn hlen)
    · exact step_record_illFormed hs (frontIllFormed_bytesAlone hcode hn hlen)
    · exact step_record_illFormed hs (frontIllFormed_crcStep hlen3)
    · exact step_record_illFormed hs (frontIllFormed_decReset hlen1)
  case other =>
    intro s r rest hs hr hcode
    refine step_record_illFormed hs (frontIllFormed_of_not_record hcode fun i hi => ?_)
    obtain ⟨-, hwf, henc⟩ := hi
    exact hr i hwf henc

end Sys2Proof.Proofs
end

section
/-! Facts about the CRC engine of spec/40_crc.md: the machine's step and fold are the pseudocode of R102, and the step in the
words of R103. -/

namespace Sys2Proof.Proofs

open Sys2Proof.Machine

theorem lowByte_toNat (v : U16) : (lowByte v).toNat = v.toNat % 256 := BitVec.toNat_setWidth ..

theorem highByte_toNat (v : U16) : (highByte v).toNat = v.toNat / 256 := by
  have hv := v.isLt
  rw [highByte, BitVec.toNat_setWidth, BitVec.toNat_ushiftRight, Nat.shiftRight_eq_div_pow]
  omega

theorem highByte_setWidth (v : U16) : (highByte v).setWidth 16 = v >>> 8 := by
  apply BitVec.eq_of_toNat_eq
  have hv := v.isLt
  rw [BitVec.toNat_setWidth, highByte_toNat, BitVec.toNat_ushiftRight, Nat.shiftRight_eq_div_pow]
  omega

/-- The byte reaches the index only through the low byte of the seed (R103). -/
theorem lowByte_xor_setWidth (seed : U16) (b : Byte) : lowByte (seed ^^^ b.setWidth 16) = lowByte seed ^^^ b := by
  simp only [lowByte, BitVec.setWidth_xor, BitVec.setWidth_setWidth_of_le b (by decide : 8 ≤ 16), BitVec.setWidth_eq]

/-- R102's step in the words of R103: the high byte of the seed, and the table word at the low byte of the exclusive or. -/
theorem specText_crcStep_eq_highByte_xor (seed : U16) (b : Byte) : SpecText.crcStep seed b =
    (highByte seed).setWidth 16 ^^^ crcTable.getD (lowByte (seed ^^^ b.setWidth 16)).toNat 0 := by
  rw [SpecText.crcStep, highByte_setWidth, lowByte_toNat]

theorem crcStep_eq_specText (seed : U16) (b : Byte) : Machine.crcStep seed b = SpecText.crcStep seed b := by
  rw [Machine.crcStep, crcWord, SpecText.crcStep, lowByte_toNat]

theorem fcs_eq_specText (seed : U16) (data : Bytes) : Machine.fcs seed data = SpecText.fcs seed data := by
  induction data generalizing seed with
  | nil => rfl
  | cons b rest ih => rw [fcs_cons, ih, crcStep_eq_specText, SpecText.fcs]

theorem respond_eq_returned (s : State) (r : Response) : s.respond r = SpecText.returned s r := rfl

theorem exec_crcStep (seed : U16) (b : Byte) (s : State) :
    exec (.crcStep seed b) s = .next (s.respond (.value (Machine.crcStep seed b))) := rfl

theorem exec_fcs (seed : U16) (data : Bytes) (s : State) :
    exec (.fcs seed data) s = .next (s.respond (.value (Machine.fcs seed data))) := rfl

/-- The zero seed and the zero byte select the table's word 0, which is zero. -/
theorem specText_crcStep_zero : SpecText.crcStep 0x0000#16 0x00#8 = 0x0000#16 := by decide

theorem specText_fcs_zeros (n : Nat) : SpecText.fcs 0x0000#16 (List.replicate n 0x00#8) = 0x0000#16 := by
  induction n with
  | zero => rfl
  | succ n ih => rw [List.replicate_succ, SpecText.fcs, specText_crcStep_zero, ih]

end Sys2Proof.Proofs
end

section
/-! The records of CRC_STEP and FCS (spec/30_encoding.md R73): the decoder reads back the fields in the spec's words. -/

namespace Sys2Proof.Proofs

open Sys2Proof.SpecText (le16 counted)

/-- A `u16` field is read back. -/
theorem readU16_lowByte_highByte (v : U16) : readU16 (lowByte v) (highByte v) = v := by
  apply BitVec.eq_of_toNat_eq
  rw [readU16_toNat, lowByte_toNat, highByte_toNat]
  exact Nat.div_add_mod ..

/-- A `bytes` operand with the length it has is read to its end. -/
theorem decodeBytesOperand_counted {data : Bytes} (hn : data.length < 2 ^ 32) (mk : Bytes → Instr) :
    decodeBytesOperand (counted data) mk = .ok (mk data, []) := by
  simp [decodeBytesOperand, counted, readBytes_le32 hn]

theorem decodeRecord_of_front {r : Bytes} {i : Instr} (h : decodeFront r = .ok (i, [])) : decodeRecord r = .ok i := by
  simp [decodeRecord, h]

theorem decodeRecord_crcStep (seed : U16) (b : Byte) :
    decodeRecord ([0x01#8] ++ le16 seed ++ [b]) = .ok (.crcStep seed b) := by
  apply decodeRecord_of_front
  simp [← u16Field_eq_le16, u16Field, decodeFront, readU16_lowByte_highByte]

theorem decodeRecord_fcs (seed : U16) {data : Bytes} (hn : data.length < 2 ^ 32) :
    decodeRecord ([0x02#8] ++ le16 seed ++ counted data) = .ok (.fcs seed data) := by
  apply decodeRecord_of_front
  simp [← u16Field_eq_le16, u16Field, decodeFront, readU16_lowByte_highByte, decodeBytesOperand_counted hn]

end Sys2Proof.Proofs
end

section
/-! Proofs for spec/40_crc.md R103 and R104: CRC_STEP and FCS. -/

namespace Sys2Proof.Proofs

open Sys2Proof.Machine

/-- Settles O2: the machine's step is R102's, and its two forms with the low byte are R103's reading of the index. -/
theorem crcStepOperation : Obligations.CrcStepOperation := by
  refine ⟨?completes, decodeRecord_crcStep, specText_crcStep_zero, specText_crcStep_eq_highByte_xor, ?index, ?sample⟩
  case completes =>
    intro s seed b
    rw [exec_crcStep, crcStep_eq_specText, respond_eq_returned]
  case index =>
    intro seed b
    rw [specText_crcStep_eq_highByte_xor, lowByte_xor_setWidth]
  case sample => decide

/-- Settles O3: the machine's fold is R102's, and zero is a fixed point of the step by a zero byte. -/
theorem fcsOperation : Obligations.FcsOperation := by
  refine ⟨?completes, fun seed _ hn => decodeRecord_fcs seed hn, fun _ => rfl, rfl, ?notGood, specText_fcs_zeros, ?sample⟩
  case completes =>
    intro s seed data
    rw [exec_fcs, fcs_eq_specText, respond_eq_returned]
  case notGood => decide
  case sample => decide

end Sys2Proof.Proofs
end

section
/-! Facts about the stuffer and the de-stuffer of spec/41_stuffing.md: the machine's stuffer is the loop of R111, and the
machine's de-stuffer, taken row by row of R69, is the index loop of R113. -/

namespace Sys2Proof.Proofs

open Sys2Proof.Machine
open Sys2Proof.SpecText (stuffOne destuffLoop counted)

/-! ### Stuffer -/

theorem stuff_eq_flatMap_stuffOne (data : Bytes) : Machine.stuff data = data.flatMap stuffOne := by
  induction data with
  | nil => rfl
  | cons b rest ih =>
    have hbyte : stuffByte b = stuffOne b := rfl
    rw [stuff_cons, List.flatMap_cons, ih, hbyte]

theorem exec_stuff (data : Bytes) (s : State) : exec (.stuff data) s = .next (s.respond (.bytes (Machine.stuff data))) := rfl

theorem decodeRecord_stuff {data : Bytes} (hn : data.length < 2 ^ 32) :
    decodeRecord ([0x03#8] ++ counted data) = .ok (.stuff data) :=
  decodeRecord_of_front (decodeBytesOperand_counted hn _)

/-! ### De-stuffer -/

/-- The five rows of R69 and what selects each. -/
theorem dsSelect_cases (b : Byte) (next : Option Byte) :
    (dsSelect b next = .flag ∧ b = ESCAPE ∧ next = some ESC_FLAG) ∨
    (dsSelect b next = .esc ∧ b = ESCAPE ∧ next = some ESC_ESCAPE) ∨
    (dsSelect b next = .lone ∧ b = ESCAPE ∧ ∃ x, next = some x ∧ x ≠ ESC_FLAG ∧ x ≠ ESC_ESCAPE) ∨
    (dsSelect b next = .tail ∧ b = ESCAPE ∧ next = none) ∨
    (dsSelect b next = .other ∧ b ≠ ESCAPE) := by
  fun_cases dsSelect b next <;> simp_all

theorem dsAdvance_pos (row : DsRow) : 0 < dsAdvance row := by cases row <;> decide

/-- One row of the machine's de-stuffer: what it emits, what it marks, and the bytes it leaves. -/
theorem destuff_cons (b : Byte) (rest : Bytes) :
    destuff (b :: rest) =
      (dsEmit (dsSelect b rest.head?) b :: (destuff ((b :: rest).drop (dsAdvance (dsSelect b rest.head?)))).1,
       dsMalformed (dsSelect b rest.head?) || (destuff ((b :: rest).drop (dsAdvance (dsSelect b rest.head?)))).2) := by
  cases rest with
  | nil =>
    have hdrop : [b].drop (dsAdvance (dsSelect b none)) = [] := List.drop_eq_nil_of_le (dsAdvance_pos _)
    simp [destuff, hdrop]
  | cons c rest =>
    rw [destuff, List.head?_cons]
    cases dsSelect b (some c) <;> rfl

theorem drop_add_one_of_drop_eq_cons {data rest : Bytes} {i : Nat} {b : Byte} (h : data.drop i = b :: rest) :
    data.drop (i + 1) = rest := by
  rw [← List.drop_drop, h, List.drop_one, List.tail_cons]

/-- One iteration of R113's loop runs the row of R69 that the current byte and the byte after it select. -/
theorem destuffLoop_succ {data rest : Bytes} {i : Nat} {b : Byte} (h : data.drop i = b :: rest) (fuel : Nat)
    (out : Bytes) (malformed : Bool) :
    destuffLoop data (fuel + 1) i out malformed =
      destuffLoop data fuel (i + dsAdvance (dsSelect b rest.head?)) (out ++ [dsEmit (dsSelect b rest.head?) b])
        (malformed || dsMalformed (dsSelect b rest.head?)) := by
  have hcur : data[i]? = some b := by rw [← List.head?_drop, h, List.head?_cons]
  have hnext : data[i + 1]? = rest.head? := by rw [← List.head?_drop, drop_add_one_of_drop_eq_cons h]
  have hlen : data.length = i + 1 + rest.length := by
    have hsum := congrArg List.length h
    rw [List.length_drop, List.length_cons] at hsum
    omega
  rw [destuffLoop, if_pos (by omega), hcur, hnext, hlen, List.getD_eq_getElem?_getD, hcur]
  rcases dsSelect_cases b rest.head? with ⟨hrow, rfl, hhead⟩ | ⟨hrow, rfl, hhead⟩ | ⟨hrow, rfl, x, hhead, hf, he⟩ |
    ⟨hrow, rfl, hhead⟩ | ⟨hrow, hb⟩ <;> rw [hrow]
  · obtain ⟨r, rfl⟩ := List.head?_eq_some_iff.1 hhead
    simp [dsAdvance, dsEmit, dsMalformed, ESCAPE, ESC_FLAG, FLAG]
  · obtain ⟨r, rfl⟩ := List.head?_eq_some_iff.1 hhead
    simp [dsAdvance, dsEmit, dsMalformed, ESCAPE, ESC_ESCAPE]
  · obtain ⟨r, rfl⟩ := List.head?_eq_some_iff.1 hhead
    rw [ESC_FLAG] at hf
    rw [ESC_ESCAPE] at he
    simp [hf, he, dsAdvance, dsEmit, dsMalformed]
  · obtain rfl := List.head?_eq_none_iff.1 hhead
    simp [dsAdvance, dsEmit, dsMalformed, ESCAPE]
  · rw [ESCAPE] at hb
    simp [hb, dsAdvance, dsEmit, dsMalformed]

/-- From any position on, R113's loop appends what the machine de-stuffs from the bytes left there. -/
theorem destuffLoop_eq_append_destuff {data : Bytes} {fuel i : Nat} (hfuel : data.length ≤ i + fuel) (out : Bytes)
    (malformed : Bool) :
    destuffLoop data fuel i out malformed =
      (out ++ (destuff (data.drop i)).1, malformed || (destuff (data.drop i)).2) := by
  induction fuel generalizing i out malformed with
  | zero =>
    have hend : data.drop i = [] := List.drop_eq_nil_of_le hfuel
    simp [destuffLoop, hend]
  | succ fuel ih =>
    cases hrest : data.drop i with
    | nil =>
      have hend : ¬ i < data.length := Nat.not_lt.2 (List.drop_eq_nil_iff.1 hrest)
      simp [destuffLoop, hend]
    | cons b rest =>
      have hpos := dsAdvance_pos (dsSelect b rest.head?)
      rw [destuffLoop_succ hrest, ih (by omega), ← List.drop_drop, hrest, destuff_cons]
      simp [Bool.or_assoc]

theorem destuffLoop_eq_destuff (data : Bytes) : destuffLoop data data.length 0 [] false = destuff data := by
  rw [destuffLoop_eq_append_destuff (by omega)]
  simp

theorem exec_destuff (data : Bytes) (s : State) :
    exec (.destuff data) s = .next (s.respond (.destuffed (destuff data).1 (destuff data).2)) := rfl

theorem decodeRecord_destuff {data : Bytes} (hn : data.length < 2 ^ 32) :
    decodeRecord ([0x04#8] ++ counted data) = .ok (.destuff data) :=
  decodeRecord_of_front (decodeBytesOperand_counted hn _)

end Sys2Proof.Proofs
end

section
/-! Proofs for spec/41_stuffing.md R111 and R113: STUFF and DESTUFF. -/

namespace Sys2Proof.Proofs

open Sys2Proof.Machine

/-- Settles O7: the machine's stuffer is R111's loop over the bytes, and STUFF answers it in every state. -/
theorem stuffOperation : Obligations.StuffOperation := by
  refine ⟨?completes, fun _ hn => decodeRecord_stuff hn, stuff_nil, by decide, by decide, by decide, by decide⟩
  intro s data
  rw [exec_stuff, stuff_eq_flatMap_stuffOne, respond_eq_returned]

/-- Settles O9: R113's loop, started at the front with nothing emitted, ends with the machine's de-stuffed bytes and flag. -/
theorem destuffOperation : Obligations.DestuffOperation := by
  refine ⟨?completes, fun _ hn => decodeRecord_destuff hn, destuff_nil, by decide⟩
  intro s data
  rw [exec_destuff, destuffLoop_eq_destuff, respond_eq_returned]

end Sys2Proof.Proofs
end

section
/-! The residue law of spec/40_crc.md R105: a sequence followed by its own FCS bytes checks to GOOD_FCS, from any seed. The step
of the first FCS byte reads the table at 0xFF and the step of the second at 0x87, whatever the CRC value is. -/

namespace Sys2Proof.Proofs

open Sys2Proof.Machine

theorem lowByte_not (v : U16) : lowByte (~~~v) = ~~~(lowByte v) := BitVec.setWidth_not (by decide)

theorem highByte_not (v : U16) : highByte (~~~v) = ~~~(highByte v) := by
  apply BitVec.eq_of_toNat_eq
  have hv := v.isLt
  rw [highByte_toNat, BitVec.toNat_not, BitVec.toNat_not, highByte_toNat]
  omega

theorem byte_xor_not_self (b : Byte) : b ^^^ ~~~b = 0xFF#8 := by
  rw [← BitVec.not_xor_right, BitVec.xor_self]
  rfl

/-- The machine's step in the words of R103. -/
theorem crcStep_eq_xor_highByte (seed : U16) (b : Byte) :
    Machine.crcStep seed b = crcWord (lowByte seed ^^^ b) ^^^ (highByte seed).setWidth 16 := by
  rw [crcStep_eq_specText, specText_crcStep_eq_highByte_xor, lowByte_xor_setWidth, BitVec.xor_comm, crcWord]

/-- The first FCS byte, the complement of the low byte, leaves only the high byte of the CRC value in the register. -/
theorem crcStep_lowByte_not (f : U16) :
    Machine.crcStep f (lowByte (~~~f)) = 0x0F78#16 ^^^ (highByte f).setWidth 16 := by
  have hword : crcWord 0xFF#8 = 0x0F78#16 := by decide
  rw [crcStep_eq_xor_highByte, lowByte_not, byte_xor_not_self, hword]

theorem highByte_xor_setWidth (v : U16) (b : Byte) : highByte (v ^^^ b.setWidth 16) = highByte v := by
  have hzero : b.setWidth 16 >>> 8 = 0#16 := by
    apply BitVec.eq_of_toNat_eq
    have hb := b.isLt
    rw [BitVec.toNat_ushiftRight, BitVec.toNat_setWidth, Nat.shiftRight_eq_div_pow, BitVec.toNat_ofNat]
    omega
  rw [highByte, BitVec.ushiftRight_xor_distrib, hzero, BitVec.xor_zero, highByte]

theorem crcStep_crcStep_not (f : U16) :
    Machine.crcStep (Machine.crcStep f (lowByte (~~~f))) (highByte (~~~f)) = GOOD_FCS := by
  rw [crcStep_lowByte_not, crcStep_eq_xor_highByte, lowByte_xor_setWidth, highByte_xor_setWidth, highByte_not,
    BitVec.xor_assoc, byte_xor_not_self]
  decide

/-- A span may be processed in pieces (R108). -/
theorem fcs_append (seed : U16) (a b : Bytes) : Machine.fcs seed (a ++ b) = Machine.fcs (Machine.fcs seed a) b :=
  List.foldl_append

theorem fcs_append_fcsBytes (seed : U16) (m : Bytes) :
    Machine.fcs seed (m ++ fcsBytes (Machine.fcs seed m)) = GOOD_FCS := by
  rw [fcs_append, fcsBytes, fcs_cons, fcs_cons, fcs_nil, crcStep_crcStep_not]

theorem frameCheck_withFcs (m : Bytes) : frameCheck (withFcs m) = true :=
  (frameCheck_iff _).2 (fcs_append_fcsBytes INIT_FCS m)

end Sys2Proof.Proofs
end

section
/-! Facts about the encoder of spec/42_encoder.md: its address byte, raw frame and wire frame are those of R130's six steps, its
self-check never fails (R135), and the three ways ENCODE ends. -/

namespace Sys2Proof.Proofs

open Sys2Proof.Machine
open Sys2Proof.SpecText (addr counted le16 wire)

theorem addressByte_eq_addr (id : Nat) : addressByte id = addr id := by
  have hshift : BitVec.ofNat 8 id <<< 2 = BitVec.ofNat 8 (id <<< 2) := by
    apply BitVec.eq_of_toNat_eq
    simp [Nat.shiftLeft_eq]
  rw [addressByte, addr, hshift, ← BitVec.ofNat_or]
  rfl

theorem fcsBytes_eq_le16 (f : U16) : fcsBytes f = le16 (~~~f) := u16Field_eq_le16 (~~~f)

theorem rawFrame_eq_raw (cfg : Config) (id : Nat) (t : Byte) (p : Bytes) :
    rawFrame cfg id t p = SpecText.raw cfg id t p := by
  have hbody : frameBody cfg id t p = SpecText.body cfg id t p := by
    rw [frameBody, addressByte_eq_addr, SpecText.body]
  rw [rawFrame, withFcs, hbody, fcsBytes_eq_le16, fcs_eq_specText]
  rfl

theorem wrapFrame_rawFrame (cfg : Config) (id : Nat) (t : Byte) (p : Bytes) :
    wrapFrame (rawFrame cfg id t p) = wire cfg id t p := by
  rw [wrapFrame, rawFrame_eq_raw, stuff_eq_flatMap_stuffOne]
  rfl

/-- ENCODE's self-check of R135 never fails. -/
theorem frameCheck_rawFrame (cfg : Config) (id : Nat) (t : Byte) (p : Bytes) : frameCheck (rawFrame cfg id t p) = true :=
  frameCheck_withFcs _

theorem exec_encode (id : Nat) (t : Byte) (p : Bytes) (s : State) : exec (.encode id t p) s = execEncode id t p s := rfl

/-- The three ways ENCODE ends, in the order of R137's checks. -/
theorem exec_encode_cases (id : Nat) (t : Byte) (p : Bytes) (s : State) :
    (64 ≤ id ∧ exec (.encode id t p) s = .next (s.respond (.error .invalidAddress))) ∨
    (id ≤ 63 ∧ s.cfg.maxRawFrame < 4 + p.length + 2 ∧
      exec (.encode id t p) s = .next (s.respond (.error .frameTooLarge))) ∨
    (id ≤ 63 ∧ 4 + p.length + 2 ≤ s.cfg.maxRawFrame ∧
      exec (.encode id t p) s = .next (s.respond (.bytes (wire s.cfg id t p)))) := by
  rw [exec_encode, execEncode]
  rcases encodeFrame_cases s.cfg id t p with ⟨hid, h⟩ | ⟨hid, hlen, h⟩ | ⟨hid, hlen, -, h⟩ | ⟨-, -, hbad, -⟩
  · rw [h]
    exact .inl ⟨hid, rfl⟩
  · rw [h]
    exact .inr (.inl ⟨hid, hlen, rfl⟩)
  · rw [h, wrapFrame_rawFrame]
    exact .inr (.inr ⟨hid, hlen, rfl⟩)
  · rw [frameCheck_rawFrame] at hbad
    cases hbad

theorem exec_encode_invalidAddress {id : Nat} (hid : 64 ≤ id) (t : Byte) (p : Bytes) (s : State) :
    exec (.encode id t p) s = .next (s.respond (.error .invalidAddress)) := by
  rcases exec_encode_cases id t p s with ⟨-, h⟩ | ⟨hid', -⟩ | ⟨hid', -⟩
  · exact h
  · omega
  · omega

theorem exec_encode_frameTooLarge {id : Nat} {p : Bytes} {s : State} (hid : id ≤ 63)
    (hlen : s.cfg.maxRawFrame < 4 + p.length + 2) (t : Byte) :
    exec (.encode id t p) s = .next (s.respond (.error .frameTooLarge)) := by
  rcases exec_encode_cases id t p s with ⟨hid', -⟩ | ⟨-, -, h⟩ | ⟨-, hlen', -⟩
  · omega
  · exact h
  · omega

theorem exec_encode_wire {id : Nat} {p : Bytes} {s : State} (hid : id ≤ 63) (hlen : 4 + p.length + 2 ≤ s.cfg.maxRawFrame)
    (t : Byte) : exec (.encode id t p) s = .next (s.respond (.bytes (wire s.cfg id t p))) := by
  rcases exec_encode_cases id t p s with ⟨hid', -⟩ | ⟨-, hlen', -⟩ | ⟨-, -, h⟩
  · omega
  · omega
  · exact h

/-- Two results leave the same state only if they are the same result. -/
theorem respond_inj {s : State} {r r' : Response} (h : s.respond r = s.respond r') : r = r' := by
  have hout := congrArg State.outbox h
  exact List.singleton_inj.1 (List.append_cancel_left hout)

/-- ENCODE answers InvalidAddress for the ids outside the domain and for no other (R131). -/
theorem exec_encode_eq_invalidAddress_iff (id : Nat) (t : Byte) (p : Bytes) (s : State) :
    exec (.encode id t p) s = .next (s.respond (.error .invalidAddress)) ↔ 64 ≤ id := by
  refine ⟨fun heq => ?_, fun hid => exec_encode_invalidAddress hid t p s⟩
  rcases exec_encode_cases id t p s with ⟨hid, -⟩ | ⟨-, -, h⟩ | ⟨-, -, h⟩
  · exact hid
  · cases respond_inj (Host.Outcome.next.inj (h.symm.trans heq))
  · cases respond_inj (Host.Outcome.next.inj (h.symm.trans heq))

/-- The record's id byte is the id (R73). -/
theorem decodeRecord_encode {id : Nat} {p : Bytes} (hid : id < 256) (hn : p.length < 2 ^ 32) (t : Byte) :
    decodeRecord ([0x05#8, BitVec.ofNat 8 id, t] ++ counted p) = .ok (.encode id t p) := by
  apply decodeRecord_of_front
  simp [decodeFront, decodeBytesOperand_counted hn, Nat.mod_eq_of_lt hid]

end Sys2Proof.Proofs
end

section
/-! Proofs for spec/42_encoder.md R130 and R131: ENCODE and its address byte. -/

namespace Sys2Proof.Proofs

open Sys2Proof.Machine
open Sys2Proof.SpecText (addr wire testConfig E1)

/-- Settles O18: the encoder's frame is that of R130's six steps, and the residue law leaves its self-check no way to fail. -/
theorem encodeOperation : Obligations.EncodeOperation := by
  refine ⟨?wire, ?address, ?ceiling, fun id t p hid hn => decodeRecord_encode hid hn t, by decide, by decide, by decide,
    ?sample⟩
  case wire =>
    intro s id t p hid hlen
    exact exec_encode_wire hid hlen t
  case address =>
    intro s id t p hid
    exact exec_encode_invalidAddress hid t p s
  case ceiling =>
    intro s id t p hid hlen
    exact exec_encode_frameTooLarge hid hlen t
  case sample =>
    intro s hs
    have hlen : 4 + [0x01#8, 0x02#8, 0x03#8].length + 2 ≤ s.cfg.maxRawFrame := by rw [hs]; decide
    have hwire : wire testConfig 1 0x13#8 [0x01#8, 0x02#8, 0x03#8] = E1 := by decide
    rw [exec_encode_wire (by decide) hlen, hs, hwire, respond_eq_returned]

/-- Settles O16: InvalidAddress is answered exactly for the ids of 64 or more, and the machine's address byte is R130's. -/
theorem encodeAddress : Obligations.EncodeAddress := by
  refine ⟨?outside, ?inside, ?byte, by decide, by decide, by decide⟩
  case outside =>
    intro s id t p hid
    exact exec_encode_invalidAddress hid t p s
  case inside =>
    intro s id t p hid heq
    have hout := (exec_encode_eq_invalidAddress_iff id t p s).1 heq
    omega
  case byte =>
    intro id hid
    have hne : id ≠ 63 := by omega
    rw [addressByte_eq_addr, addr, if_neg hne]

end Sys2Proof.Proofs
end

section
/-! Facts about the rows of spec/43_stream_decoder.md: the condition of R68 selects its row, and what a selected row and a FEED
do on an instance that is ready. -/

namespace Sys2Proof.Proofs

open Sys2Proof.Machine
open Sys2Proof.SpecText (RowCondition fresh)

/-! ### One byte -/

/-- A row is selected where its condition in R68's table holds. -/
theorem rxRowOf_of_condition {cfg : Config} {D : Decoder} {b : Byte} {row : RxRow} (h : RowCondition cfg D b row) :
    rxRowOf cfg D b = row := by
  cases row with
  | ovf => exact rxRowOf_full h b
  | esc =>
    obtain ⟨hroom, rfl⟩ := h
    rw [rxRowOf_notFull hroom]
    rfl
  | escd =>
    obtain ⟨hroom, hesc, hb⟩ := h
    rw [rxRowOf_notFull hroom]
    simp [rxSelectByte, ESCAPE, hesc, hb]
  | idleF | cfmdF | payF =>
    obtain ⟨hroom, hesc, hst, rfl⟩ := h
    rw [rxRowOf_notFull hroom, hesc, hst]
    rfl
  | idleO | cfmgO | cfmdO | payO =>
    obtain ⟨hroom, hesc, hst, hf, he⟩ := h
    rw [rxRowOf_notFull hroom, hesc, hst]
    simp [rxSelectByte, ESCAPE, FLAG, hf, he]
  | cfmgF0 =>
    obtain ⟨hroom, hesc, hst, rfl, hempty⟩ := h
    rw [rxRowOf_notFull hroom, hesc, hst, List.length_eq_zero_iff.1 hempty]
    rfl
  | cfmgF1 =>
    obtain ⟨hroom, hesc, hst, rfl, hbytes⟩ := h
    rw [rxRowOf_notFull hroom, hesc, hst, List.isEmpty_eq_false_iff.2 (List.ne_nil_of_length_pos hbytes)]
    rfl

/-- A selected row other than the overflow row runs its action and goes on. -/
theorem rxStep_of_condition {cfg : Config} {D : Decoder} {b : Byte} {row : RxRow} (h : RowCondition cfg D b row)
    (hovf : row ≠ .ovf) :
    rxStep cfg D b =
      { dec := (rxAction row D b).1, frames := (rxAction row D b).2, overflow := false, stop := false } := by
  rw [rxStep, rxRowOf_of_condition h, rxRun, if_neg hovf]

/-- The machine's byte is `rx_byte` of R150, which appends to the frames it is given. -/
theorem specText_rxByte_eq (D : Decoder) (b : Byte) (frames : List Bytes) :
    SpecText.rxByte D b frames = ((rxByte D b).1, frames ++ (rxByte D b).2) := by
  rcases rxByte_cases D b with ⟨hb, h⟩ | ⟨hb, hesc, h⟩ | ⟨hb, hesc, hrow⟩
  · rw [h]
    simp [SpecText.rxByte, hb, ESCAPE]
  · rw [h]
    rw [ESCAPE] at hb
    simp [SpecText.rxByte, hb, hesc]
  · rw [ESCAPE] at hb
    rw [FLAG] at hrow
    rcases hrow with ⟨hst, hf, h⟩ | ⟨hst, hf, h⟩ | ⟨hst, hf, hbuf, h⟩ | ⟨hst, hf, hbuf, h⟩ | ⟨hst, hf, h⟩ | ⟨hst, hf, h⟩ |
      ⟨hst, hf, h⟩ | ⟨hst, hf, h⟩ | ⟨hst, hf, h⟩ <;> rw [h] <;> simp [SpecText.rxByte, *]

/-- Only a FLAG that ends a frame leaves an instance in Confirming with an empty buffer. -/
theorem rxByte_confirming_empty {D : Decoder} {b : Byte} (hst : (rxByte D b).1.st = .confirming)
    (hbuf : (rxByte D b).1.buf = []) : D.esc = false ∧ D.st = .payload ∧ b = FLAG := by
  rcases rxByte_cases D b with ⟨-, h⟩ | ⟨-, -, h⟩ | ⟨-, hesc, hrow⟩
  · simp [h] at hbuf
  · simp [h] at hbuf
  · rcases hrow with ⟨-, -, h⟩ | ⟨hidle, -, h⟩ | ⟨-, -, -, h⟩ | ⟨-, -, -, h⟩ | ⟨-, -, h⟩ | ⟨-, -, h⟩ | ⟨-, -, h⟩ |
      ⟨hpay, hf, -⟩ | ⟨-, -, h⟩
    · simp [h] at hbuf
    · simp [h, hidle] at hst
    · simp [h] at hst
    · simp [h] at hst
    · simp [h] at hst
    · simp [h] at hbuf
    · simp [h] at hbuf
    · exact ⟨hesc, hpay, hf⟩
    · simp [h] at hbuf

theorem reset_eq_fresh : Decoder.reset = fresh := rfl

/-- No byte makes the reset state emit a frame. -/
theorem rxByte_fresh_frames (b : Byte) : (rxByte fresh b).2 = [] := by
  by_cases he : b = ESCAPE
  · subst he
    rfl
  · by_cases hf : b = FLAG
    · subst hf
      rfl
    · simp [rxByte, fresh, rxSelectByte, he, hf, rxAction]

/-! ### The FEED loop -/

/-- The loop's turn for a byte that meets a full buffer, the rest of the chunk dropped (R151). -/
theorem feedLoop_full_drop {cfg : Config} {D : Decoder} (hfull : cfg.bufCap ≤ D.buf.length)
    (hdrop : cfg.overflowDropsRestOfChunk = true) (b : Byte) (rest : Bytes) :
    feedLoop cfg D (b :: rest) = { dec := fresh, frames := [], overflow := true } := by
  have hstep := rxStep_full_drop hfull hdrop b
  rw [feedLoop_stop (by rw [hstep]), hstep, reset_eq_fresh]

/-- The loop's turn for a byte that meets a full buffer and is processed from the reset state (R151). -/
theorem feedLoop_full_resume {cfg : Config} {D : Decoder} (hfull : cfg.bufCap ≤ D.buf.length)
    (hdrop : cfg.overflowDropsRestOfChunk = false) (b : Byte) (rest : Bytes) :
    feedLoop cfg D (b :: rest) =
      { feedLoop cfg (rxByte fresh b).1 rest with overflow := true } := by
  have hstep := rxStep_full_resume hfull hdrop b
  rw [feedLoop_go (by rw [hstep]), hstep, reset_eq_fresh, rxByte_fresh_frames, List.nil_append, Bool.true_or]

/-- The loop's turn for a byte that meets a buffer with room (R153 to R158). -/
theorem feedLoop_notFull {cfg : Config} {D : Decoder} (hroom : D.buf.length < cfg.bufCap) (b : Byte) (rest : Bytes) :
    feedLoop cfg D (b :: rest) =
      { feedLoop cfg (rxByte D b).1 rest with
        frames := (rxByte D b).2 ++ (feedLoop cfg (rxByte D b).1 rest).frames } := by
  have hstep := rxStep_notFull hroom b
  rw [feedLoop_go (by rw [hstep]), hstep, Bool.false_or]

/-- The loop's turn for a byte whose row is known. -/
theorem feedLoop_of_condition {cfg : Config} {D : Decoder} {b : Byte} {row : RxRow} (h : RowCondition cfg D b row)
    (hovf : row ≠ .ovf) (rest : Bytes) :
    feedLoop cfg D (b :: rest) =
      { feedLoop cfg (rxAction row D b).1 rest with
        frames := (rxAction row D b).2 ++ (feedLoop cfg (rxAction row D b).1 rest).frames } := by
  have hstep := rxStep_of_condition h hovf
  rw [feedLoop_go (by rw [hstep]), hstep, Bool.false_or]

/-- From any position on, R150's loop adds what the machine's loop does with the bytes left there. -/
theorem specText_feedLoop_eq {cfg : Config} {chunk : Bytes} {fuel i : Nat} (hfuel : chunk.length ≤ i + fuel) (D : Decoder)
    (frames : List Bytes) (overflow : Bool) :
    SpecText.feedLoop cfg chunk fuel i D frames overflow =
      ((feedLoop cfg D (chunk.drop i)).dec, frames ++ (feedLoop cfg D (chunk.drop i)).frames,
        overflow || (feedLoop cfg D (chunk.drop i)).overflow) := by
  induction fuel generalizing i D frames overflow with
  | zero =>
    have hend : chunk.drop i = [] := List.drop_eq_nil_of_le hfuel
    simp [SpecText.feedLoop, hend]
  | succ fuel ih =>
    cases hrest : chunk.drop i with
    | nil =>
      have hend : ¬ i < chunk.length := Nat.not_lt.2 (List.drop_eq_nil_iff.1 hrest)
      simp [SpecText.feedLoop, hend]
    | cons b rest =>
      have hcur : chunk[i]? = some b := by rw [← List.head?_drop, hrest, List.head?_cons]
      have hi : i < chunk.length := (List.getElem?_eq_some_iff.1 hcur).1
      have htail := drop_add_one_of_drop_eq_cons hrest
      rw [SpecText.feedLoop, if_pos hi, List.getD_eq_getElem?_getD, hcur, Option.getD_some]
      by_cases hfull : D.buf.length ≥ cfg.bufCap
      · rw [if_pos hfull]
        cases hdrop : cfg.overflowDropsRestOfChunk with
        | true => simp [feedLoop_full_drop hfull hdrop]
        | false =>
          simp [feedLoop_full_resume hfull hdrop, specText_rxByte_eq, ih (i := i + 1) (by omega), htail,
            rxByte_fresh_frames]
      · simp [if_neg hfull, feedLoop_notFull (Nat.not_le.1 hfull), specText_rxByte_eq, ih (i := i + 1) (by omega), htail]

/-- FEED's effect on an instance is the loop of R150. -/
theorem specText_feed_eq (cfg : Config) (D : Decoder) (chunk : Bytes) :
    SpecText.feed cfg D chunk =
      ((feedLoop cfg D chunk).dec, (feedLoop cfg D chunk).frames,
        (feedLoop cfg D chunk).overflow) := by
  rw [SpecText.feed, specText_feedLoop_eq (by omega)]
  simp

end Sys2Proof.Proofs
end

section
/-! What FEED and a selected row answer on an instance that is ready, and the record of FEED (spec/30_encoding.md R73). -/

namespace Sys2Proof.Proofs

open Sys2Proof.Machine
open Sys2Proof.SpecText (Ready RowCondition served counted)

theorem respond_setDecoder_eq_served (s : State) (d : Nat) (D : Decoder) (r : Response) :
    (s.setDecoder d D).respond r = served s d D r := rfl

/-- A ready instance has no open FEED. -/
theorem isOpen_of_ready {s : State} {d : Nat} {D : Decoder} (h : Ready s d D) : s.isOpen d = false :=
  (isOpen_eq_false_iff s d).2 h.2

/-- An instance is ready for the next operation with the state it was given. -/
theorem ready_setDecoder {s : State} {d : Nat} {D : Decoder} (h : Ready s d D) (D' : Decoder) :
    Ready (s.setDecoder d D') d D' := by
  obtain ⟨hD, hopen⟩ := h
  have hd : d < s.decoders.length := (List.getElem?_eq_some_iff.1 hD).1
  exact ⟨by simp [hd], hopen⟩

/-- Of two states given to an instance the second stands. -/
theorem served_setDecoder (s : State) (d : Nat) (D D' : Decoder) (r : Response) :
    served (s.setDecoder d D) d D' r = served s d D' r := by
  simp [served, State.setDecoder]

/-! ### FEED -/

theorem exec_feed (d : Nat) (chunk : Bytes) (s : State) : exec (.feed d chunk) s = execFeed d chunk s := rfl

theorem exec_feed_ready {s : State} {d : Nat} {D : Decoder} (h : Ready s d D) (chunk : Bytes) :
    exec (.feed d chunk) s = .next (served s d (feedLoop s.cfg D chunk).dec
      (.frames (feedLoop s.cfg D chunk).frames (feedLoop s.cfg D chunk).overflow)) := by
  rw [exec_feed, execFeed_ready h.1 (isOpen_of_ready h), respond_setDecoder_eq_served]

/-- FEED on an instance with an open FEED is the fault of R208. -/
theorem exec_feed_open {s : State} {d : Nat} {D : Decoder} (hD : s.decoders[d]? = some D) (ho : s.isOpen d = true)
    (chunk : Bytes) : exec (.feed d chunk) s = .fault (.reentrantFeed d) := withDecoder_open _ hD ho

/-- A FEED of one byte that meets a buffer with room. -/
theorem exec_feed_byte_notFull {s : State} {d : Nat} {D : Decoder} (h : Ready s d D) (hroom : D.buf.length < s.cfg.bufCap)
    (b : Byte) : exec (.feed d [b]) s = .next (served s d (rxByte D b).1 (.frames (rxByte D b).2 false)) := by
  rw [exec_feed_ready h, feedLoop_notFull hroom]
  simp

/-- A FEED of one byte whose row is known. -/
theorem exec_feed_byte_of_condition {s : State} {d : Nat} {D : Decoder} {b : Byte} {row : RxRow} (h : Ready s d D)
    (hc : RowCondition s.cfg D b row) (hovf : row ≠ .ovf) :
    exec (.feed d [b]) s = .next (served s d (rxAction row D b).1 (.frames (rxAction row D b).2 false)) := by
  rw [exec_feed_ready h, feedLoop_of_condition hc hovf]
  simp

theorem decodeRecord_feed {d : Nat} {chunk : Bytes} (hd : d < 256) (hn : chunk.length < 2 ^ 32) :
    decodeRecord ([0x07#8, BitVec.ofNat 8 d] ++ counted chunk) = .ok (.feed d chunk) := by
  apply decodeRecord_of_front
  simp [decodeFront, decodeBytesOperand_counted hn, Nat.mod_eq_of_lt hd]

/-! ### A row alone -/

/-- The byte that a row's condition allows is the byte its encoded form shows. -/
theorem encode_rxInstr_of_condition {cfg : Config} {D : Decoder} {b : Byte} {row : RxRow} (h : RowCondition cfg D b row)
    (d : Nat) : encode (rxInstr row d b) = .rxByte d b := by
  cases row with
  | ovf | escd | idleO | cfmgO | cfmdO | payO => rfl
  | esc =>
    obtain ⟨-, rfl⟩ := h
    rfl
  | idleF | cfmdF | payF =>
    obtain ⟨-, -, -, rfl⟩ := h
    rfl
  | cfmgF0 | cfmgF1 =>
    obtain ⟨-, -, -, rfl, -⟩ := h
    rfl

/-- Where its encoded form shows the byte `b`, the instruction of a row runs that row on `b`. -/
theorem exec_rxInstr {row : RxRow} {d : Nat} {b : Byte} (h : encode (rxInstr row d b) = .rxByte d b) (s : State) :
    exec (rxInstr row d b) s = runRxRow row d b s := by
  cases row <;> cases h <;> rfl

/-- A row alone whose condition holds takes the step of its byte. -/
theorem exec_rxInstr_of_condition {s : State} {d : Nat} {D : Decoder} {b : Byte} {row : RxRow} (h : Ready s d D)
    (hc : RowCondition s.cfg D b row) :
    exec (rxInstr row d b) s =
      .next (served s d (rxStep s.cfg D b).dec (.frames (rxStep s.cfg D b).frames (rxStep s.cfg D b).overflow)) := by
  rw [exec_rxInstr (encode_rxInstr_of_condition hc d), runRxRow_ready h.1 (isOpen_of_ready h) (rxRowOf_of_condition hc),
    respond_setDecoder_eq_served]

/-- A row alone other than the overflow row runs its action where its condition holds. -/
theorem exec_rxInstr_action {s : State} {d : Nat} {D : Decoder} {b : Byte} {row : RxRow} (h : Ready s d D)
    (hc : RowCondition s.cfg D b row) (hovf : row ≠ .ovf) :
    exec (rxInstr row d b) s = .next (served s d (rxAction row D b).1 (.frames (rxAction row D b).2 false)) := by
  rw [exec_rxInstr_of_condition h hc, rxStep_of_condition hc hovf]

end Sys2Proof.Proofs
end

section
/-! Proofs for spec/43_stream_decoder.md R150 and R151: FEED, and a byte that meets a full buffer. -/

namespace Sys2Proof.Proofs

open Sys2Proof.Machine
open Sys2Proof.SpecText (Ready served fresh afterFrame testConfig E1)

/-- RX_OVF alone, the rest of the chunk dropped. -/
theorem exec_rxOvf_drop {s : State} {d : Nat} {D : Decoder} (h : Ready s d D) (hfull : s.cfg.bufCap ≤ D.buf.length)
    (hdrop : s.cfg.overflowDropsRestOfChunk = true) (b : Byte) :
    exec (.rxOvf d b) s = .next (served s d fresh (.frames [] true)) := by
  have hrow := exec_rxInstr_of_condition (row := .ovf) (b := b) h hfull
  rw [rxStep_full_drop hfull hdrop] at hrow
  exact hrow

/-- RX_OVF alone, its byte processed from the reset state. -/
theorem exec_rxOvf_resume {s : State} {d : Nat} {D : Decoder} (h : Ready s d D) (hfull : s.cfg.bufCap ≤ D.buf.length)
    (hdrop : s.cfg.overflowDropsRestOfChunk = false) (b : Byte) :
    exec (.rxOvf d b) s = .next (served s d (rxByte fresh b).1 (.frames [] true)) := by
  have hrow := exec_rxInstr_of_condition (row := .ovf) (b := b) h hfull
  rw [rxStep_full_resume hfull hdrop, reset_eq_fresh, rxByte_fresh_frames] at hrow
  exact hrow

theorem exec_feed_full_drop {s : State} {d : Nat} {D : Decoder} (h : Ready s d D) (hfull : s.cfg.bufCap ≤ D.buf.length)
    (hdrop : s.cfg.overflowDropsRestOfChunk = true) (b : Byte) (rest : Bytes) :
    exec (.feed d (b :: rest)) s = .next (served s d fresh (.frames [] true)) := by
  rw [exec_feed_ready h, feedLoop_full_drop hfull hdrop]

/-- Settles O22: with room the loop's turn is R150's byte; at a full buffer it is the reset, after which a resuming FEED is the
FEED of the rest. -/
theorem rxOverflow : Obligations.RxOverflow := by
  refine ⟨?room, ?fills, fun s d D b rest h hfull => ⟨fun hdrop => ?drop, fun hdrop => ?resume⟩⟩
  case room =>
    intro s d D b h hroom
    rw [exec_feed_byte_notFull h hroom, specText_rxByte_eq, List.nil_append]
  case fills =>
    intro s d D h hst hesc hlen
    rw [exec_feed_byte_of_condition (row := .payF) h ⟨by omega, hesc, hst, rfl⟩ (by decide)]
    simp [rxAction, afterFrame, hesc]
  case drop => exact ⟨exec_rxOvf_drop h hfull hdrop b, exec_feed_full_drop h hfull hdrop b rest⟩
  case resume =>
    rw [specText_rxByte_eq]
    refine ⟨exec_rxOvf_resume h hfull hdrop b, (feedLoop s.cfg (rxByte fresh b).1 rest).dec,
      (feedLoop s.cfg (rxByte fresh b).1 rest).frames, (feedLoop s.cfg (rxByte fresh b).1 rest).overflow, ?_, ?_⟩
    · rw [exec_feed_ready (ready_setDecoder h _), served_setDecoder, setDecoder_cfg]
    · rw [exec_feed_ready h, feedLoop_full_resume hfull hdrop]

/-- Settles O32: the machine's loop is R150's, by `specText_feed_eq`. -/
theorem feedOperation : Obligations.FeedOperation := by
  refine ⟨?loop, fun d chunk hd hn => decodeRecord_feed hd hn, ?empty, ?full, ?absent, ?reentrant, ?sample⟩
  case loop =>
    intro s d D chunk h
    rw [specText_feed_eq, exec_feed_ready h]
  case empty =>
    intro s d D h
    rw [exec_feed_ready h, feedLoop_nil, ← respond_setDecoder_eq_served, setDecoder_self h.1, respond_eq_returned]
  case full =>
    intro s d D b rest h hfull hdrop
    exact exec_feed_full_drop h hfull hdrop b rest
  case absent =>
    intro s chunk d hnone
    exact exec_feed_absent hnone chunk
  case reentrant =>
    intro s D chunk d hD ho
    exact exec_feed_open hD ((isOpen_iff s d).2 ho) chunk
  case sample =>
    intro s hs h
    have hloop : feedLoop testConfig fresh (0x7E#8 :: E1) = { dec := afterFrame, frames := [E1], overflow := false } := by
      decide
    rw [exec_feed_ready h, hs, hloop]

end Sys2Proof.Proofs
end

section
/-! Proofs for spec/43_stream_decoder.md R153 to R158: the rows that meet a buffer with room. Each is its condition in R68's
table, and the action of the row. -/

namespace Sys2Proof.Proofs

open Sys2Proof.Machine
open Sys2Proof.SpecText (Ready RowCondition served)

/-- Settles O23: an ESCAPE selects RX_ESC in every state, and the escape it leaves pending selects RX_ESCD. -/
theorem rxEscapeByte : Obligations.RxEscapeByte := by
  intro s d D h hroom
  have hesc : RowCondition s.cfg D 0x7D#8 .esc := ⟨hroom, rfl⟩
  refine ⟨exec_rxInstr_action h hesc (by decide), exec_feed_byte_of_condition h hesc (by decide), fun hroom' b hb => ?_⟩
  have hescd : RowCondition s.cfg (rxAction .esc D 0x7D#8).1 b .escd := ⟨by simpa [rxAction] using hroom', rfl, hb⟩
  rw [exec_feed_ready h, feedLoop_of_condition hesc (by decide), feedLoop_of_condition hescd (by decide)]
  simp [rxAction]

/-- Settles O24: a byte other than ESCAPE with an escape pending selects RX_ESCD. -/
theorem rxEscapedByte : Obligations.RxEscapedByte := by
  intro s d D b h hroom hesc hb
  have hescd : RowCondition s.cfg D b .escd := ⟨hroom, hesc, hb⟩
  exact ⟨exec_rxInstr_action h hescd (by decide), exec_feed_byte_of_condition h hescd (by decide)⟩

/-- Settles O25: in Idle a FLAG selects RX_IDLE_F and an ordinary byte RX_IDLE_O, whose action keeps the instance. -/
theorem rxIdleRows : Obligations.RxIdleRows := by
  intro s d D h hroom hesc hst
  refine ⟨?flag, fun b hf he => ?other⟩
  case flag => exact exec_rxInstr_action (row := .idleF) h ⟨hroom, hesc, hst, rfl⟩ (by decide)
  case other => exact exec_rxInstr_action (row := .idleO) h ⟨hroom, hesc, hst, hf, he⟩ (by decide)

/-- Only RX_PAY_F leaves an instance in Confirming with an empty buffer: the overflow row ends in the reset state or where a byte
takes that state. -/
theorem rxRowOf_of_confirming_empty {cfg : Config} {D : Decoder} {b : Byte} (hst : (rxStep cfg D b).dec.st = .confirming)
    (hbuf : (rxStep cfg D b).dec.buf = []) : rxRowOf cfg D b = .payF := by
  rcases Nat.lt_or_ge D.buf.length cfg.bufCap with hroom | hfull
  · rw [rxStep_notFull hroom] at hst hbuf
    obtain ⟨hesc, hpay, hf⟩ := rxByte_confirming_empty hst hbuf
    exact rxRowOf_of_condition ⟨hroom, hesc, hpay, hf⟩
  · cases hdrop : cfg.overflowDropsRestOfChunk with
    | true =>
      rw [rxStep_full_drop hfull hdrop] at hst
      cases hst
    | false =>
      rw [rxStep_full_resume hfull hdrop] at hst hbuf
      obtain ⟨-, hpay, -⟩ := rxByte_confirming_empty hst hbuf
      cases hpay

/-- Settles O26: in Confirming the length of the buffer tells RX_CFMG_F0 from RX_CFMG_F1, and an ordinary byte selects
RX_CFMG_O. -/
theorem rxConfirmingRows : Obligations.RxConfirmingRows := by
  refine ⟨fun cfg D b hst hbuf => rxRowOf_of_confirming_empty hst hbuf, ?_⟩
  intro s d D h hroom hesc hst
  refine ⟨fun hempty => ?first, fun hbytes => ?second, fun b hf he => ?other⟩
  case first => exact exec_rxInstr_action (row := .cfmgF0) h ⟨hroom, hesc, hst, rfl, hempty⟩ (by decide)
  case second => exact exec_rxInstr_action (row := .cfmgF1) h ⟨hroom, hesc, hst, rfl, hbytes⟩ (by decide)
  case other => exact exec_rxInstr_action (row := .cfmgO) h ⟨hroom, hesc, hst, hf, he⟩ (by decide)

/-- Settles O27: in Confirmed a FLAG selects RX_CFMD_F, which stores it, and an ordinary byte RX_CFMD_O. -/
theorem rxConfirmedRows : Obligations.RxConfirmedRows := by
  intro s d D h hroom hesc hst
  refine ⟨?flag, fun b hf he => ?other⟩
  case flag => exact exec_rxInstr_action (row := .cfmdF) h ⟨hroom, hesc, hst, rfl⟩ (by decide)
  case other => exact exec_rxInstr_action (row := .cfmdO) h ⟨hroom, hesc, hst, hf, he⟩ (by decide)

/-- Settles O28: in Payload a FLAG selects RX_PAY_F, which emits the buffer with it, and an ordinary byte RX_PAY_O. -/
theorem rxPayloadRows : Obligations.RxPayloadRows := by
  intro s d D h hroom hesc hst
  refine ⟨?flag, fun b hf he => ?other⟩
  case flag => exact exec_rxInstr_action (row := .payF) h ⟨hroom, hesc, hst, rfl⟩ (by decide)
  case other => exact exec_rxInstr_action (row := .payO) h ⟨hroom, hesc, hst, hf, he⟩ (by decide)

end Sys2Proof.Proofs
end

section
/-! Facts about the validator of spec/44_validator.md: its strip is that of R181 and its result that of R180's pseudocode; and
what PARSE_HEADER does on a short and on a long body. -/

namespace Sys2Proof.Proofs

open Sys2Proof.Machine
open Sys2Proof.SpecText (counted)

/-! ### Strip -/

@[simp] theorem stripLeadingFlag_flag_cons (f : Bytes) : stripLeadingFlag (FLAG :: f) = f := rfl

theorem stripLeadingFlag_of_head? {f : Bytes} (h : f.head? ≠ some FLAG) : stripLeadingFlag f = f := if_neg h

@[simp] theorem stripTrailingFlag_append_flag (f : Bytes) : stripTrailingFlag (f ++ [FLAG]) = f := by
  simp [stripTrailingFlag]

theorem stripTrailingFlag_of_getLast? {f : Bytes} (h : f.getLast? ≠ some FLAG) : stripTrailingFlag f = f := if_neg h

/-- The two FLAGs of a delimited frame go, whatever stands between them. -/
@[simp] theorem stripFlags_delimited (f : Bytes) : stripFlags (FLAG :: (f ++ [FLAG])) = f := by
  rw [stripFlags, stripLeadingFlag_flag_cons, stripTrailingFlag_append_flag]

theorem stripFlags_flag_cons {f : Bytes} (hlast : f.getLast? ≠ some FLAG) : stripFlags (FLAG :: f) = f := by
  rw [stripFlags, stripLeadingFlag_flag_cons, stripTrailingFlag_of_getLast? hlast]

theorem stripFlags_of_undelimited {f : Bytes} (hhead : f.head? ≠ some FLAG) (hlast : f.getLast? ≠ some FLAG) :
    stripFlags f = f := by
  rw [stripFlags, stripLeadingFlag_of_head? hhead, stripTrailingFlag_of_getLast? hlast]

/-- A frame with its trailing FLAG only: the empty one is a lone FLAG, which goes as the leading one. -/
theorem stripFlags_append_flag {f : Bytes} (hhead : f.head? ≠ some FLAG) : stripFlags (f ++ [FLAG]) = f := by
  cases f with
  | nil => rfl
  | cons b rest =>
    rw [stripFlags, stripLeadingFlag_of_head? (f := b :: rest ++ [FLAG]) hhead, stripTrailingFlag_append_flag]

/-- The two strip lines of R180 are the machine's two tests. -/
theorem specText_strip_eq (frame : Bytes) : SpecText.strip frame = stripFlags frame := by
  have hleading : (if 1 ≤ frame.length ∧ frame[0]? = some 0x7E#8 then frame.drop 1 else frame) = stripLeadingFlag frame := by
    cases frame with
    | nil => rfl
    | cons b rest => simp [stripLeadingFlag, FLAG]
  have htrailing (f : Bytes) :
      (if 1 ≤ f.length ∧ f[f.length - 1]? = some 0x7E#8 then f.take (f.length - 1) else f) = stripTrailingFlag f := by
    cases f with
    | nil => rfl
    | cons b rest => simp [stripTrailingFlag, FLAG, List.getLast?_eq_getElem?, List.dropLast_eq_take]
  rw [SpecText.strip, hleading, htrailing, stripFlags]

/-- Among several FLAGs on both sides, one goes from each. -/
theorem stripFlags_replicate_flag (f : Bytes) (m n : Nat) :
    stripFlags (List.replicate (m + 1) FLAG ++ (f ++ List.replicate (n + 1) FLAG)) =
      List.replicate m FLAG ++ (f ++ List.replicate n FLAG) := by
  rw [List.replicate_succ, List.replicate_succ', List.cons_append, ← List.append_assoc f, ← List.append_assoc _ _ [FLAG],
    stripFlags_delimited]

/-! ### VALIDATE -/

theorem exec_validate (frame : Bytes) (s : State) : exec (.validate frame) s = execValidate frame s := rfl

theorem exec_validate_badFcs {frame : Bytes}
    (hbad : (destuff (stripFlags frame)).2 = true ∨ frameCheck (destuff (stripFlags frame)).1 = false) (s : State) :
    exec (.validate frame) s = .next (s.respond (.error .badFcs)) := by
  rw [exec_validate]
  rcases execValidate_cases frame s with ⟨-, h⟩ | ⟨hok, hcheck, -⟩
  · exact h
  · simp [hok, hcheck] at hbad

/-- R180's pseudocode in the machine's words. -/
theorem specText_validate_eq (frame : Bytes) :
    SpecText.validate frame =
      if (destuff (stripFlags frame)).2 = true ∨ frameCheck (destuff (stripFlags frame)).1 = false then none
      else some (dropFcs (destuff (stripFlags frame)).1) := by
  rw [SpecText.validate, specText_strip_eq, destuffLoop_eq_destuff, ← fcs_eq_specText]
  cases (destuff (stripFlags frame)).2 with
  | true => simp
  | false => simp [frameCheck, INIT_FCS, GOOD_FCS, dropFcs, FCS_LEN]

theorem decodeRecord_validate {frame : Bytes} (hn : frame.length < 2 ^ 32) :
    decodeRecord ([0x08#8] ++ counted frame) = .ok (.validate frame) :=
  decodeRecord_of_front (decodeBytesOperand_counted hn _)

/-! ### PARSE_HEADER -/

theorem exec_parseHeader_cons (a c i t : Byte) (payload : Bytes) (s : State) :
    exec (.parseHeader (a :: c :: i :: t :: payload)) s = .next (s.respond (.header a c i t payload)) := rfl

theorem exec_parseHeader_short {body : Bytes} (h : body.length < 4) (s : State) :
    exec (.parseHeader body) s = .next (s.respond (.error .truncatedFrame)) :=
  match body, h with
  | [], _ => rfl
  | [_], _ => rfl
  | [_, _], _ => rfl
  | [_, _, _], _ => rfl

/-- A body with room for the header is its four bytes and a payload. -/
theorem eq_header_cons_of_length {body : Bytes} (h : 4 ≤ body.length) :
    ∃ a c i t payload, body = a :: c :: i :: t :: payload :=
  match body, h with
  | a :: c :: i :: t :: payload, _ => ⟨a, c, i, t, payload, rfl⟩

theorem decodeRecord_parseHeader {body : Bytes} (hn : body.length < 2 ^ 32) :
    decodeRecord ([0x09#8] ++ counted body) = .ok (.parseHeader body) :=
  decodeRecord_of_front (decodeBytesOperand_counted hn _)

end Sys2Proof.Proofs
end

section
/-! The round trip of spec/41_stuffing.md R117 on the machine's codec, and the FLAGs that the de-stuffer keeps as data (R115). -/

namespace Sys2Proof.Proofs

open Sys2Proof.Machine

/-- What the stuffer puts out for one byte, the de-stuffer turns back before it goes on. -/
theorem destuff_stuffByte_append (b : Byte) (rest : Bytes) :
    destuff (stuffByte b ++ rest) = (b :: (destuff rest).1, (destuff rest).2) := by
  rcases stuffByte_cases b with ⟨rfl, h⟩ | ⟨rfl, h⟩ | ⟨-, he, h⟩ <;> rw [h]
  · exact destuff_pair_flag rest
  · exact destuff_pair_escape rest
  · exact destuff_other he rest

theorem destuff_stuff (data : Bytes) : destuff (Machine.stuff data) = (data, false) := by
  induction data with
  | nil => rfl
  | cons b rest ih => rw [stuff_cons, destuff_stuffByte_append, ih]

theorem destuff_replicate_flag_append (k : Nat) (rest : Bytes) :
    destuff (List.replicate k FLAG ++ rest) = (List.replicate k FLAG ++ (destuff rest).1, (destuff rest).2) := by
  induction k with
  | zero => rfl
  | succ k ih => rw [List.replicate_succ, List.cons_append, destuff_other (by decide), ih, List.cons_append]

end Sys2Proof.Proofs
end

section
/-! Over fixed data the CRC of spec/40_crc.md is injective in its seed: the high byte of the result of a step names the table word
that was taken. So a sequence that checks from one seed checks from no other. -/

namespace Sys2Proof.Proofs

open Sys2Proof.Machine

/-- The index of the table word with the high byte `h`. The high byte at index `i` is `c ^^^ (c >>> 5)` with
`c = i ^^^ (i <<< 4)`, and in eight bits each of the two maps is its own inverse. -/
def indexOfHighByte (h : Byte) : Byte :=
  let c := h ^^^ (h >>> 5)
  c ^^^ (c <<< 4)

theorem indexOfHighByte_highByte_crcWord : ∀ i : Byte, indexOfHighByte (highByte (crcWord i)) = i := by decide +kernel

/-- No two words of the table have the same high byte. -/
theorem highByte_crcWord_injective : Function.Injective fun i : Byte => highByte (crcWord i) :=
  Function.LeftInverse.injective indexOfHighByte_highByte_crcWord

theorem eq_of_lowByte_eq_of_highByte_eq {v w : U16} (hlow : lowByte v = lowByte w) (hhigh : highByte v = highByte w) :
    v = w := by
  rw [← readU16_lowByte_highByte v, hlow, hhigh, readU16_lowByte_highByte]

/-- The high byte of a step's result gives the low byte of the seed, and what is left gives the high one. -/
theorem crcStep_seed_injective (b : Byte) : Function.Injective fun seed => Machine.crcStep seed b := by
  intro v w h
  simp only [crcStep_eq_xor_highByte] at h
  have hhighs := congrArg highByte h
  rw [highByte_xor_setWidth, highByte_xor_setWidth] at hhighs
  have hlow : lowByte v = lowByte w := (BitVec.xor_left_inj _).1 (highByte_crcWord_injective hhighs)
  have hhigh : (highByte v).setWidth 16 = (highByte w).setWidth 16 := by
    rw [hlow] at h
    exact (BitVec.xor_right_inj _).1 h
  refine eq_of_lowByte_eq_of_highByte_eq hlow ?_
  have hnarrow := congrArg (BitVec.setWidth 8) hhigh
  simpa using hnarrow

theorem fcs_seed_injective (data : Bytes) : Function.Injective fun seed => Machine.fcs seed data := by
  induction data with
  | nil => exact fun _ _ h => h
  | cons b rest ih => exact ih.comp (crcStep_seed_injective b)

/-- Bytes in front of a sequence that checks spoil the check, unless they leave the register as it was. -/
theorem frameCheck_append_eq_false {pre r : Bytes} (hr : frameCheck r = true) (hpre : Machine.fcs INIT_FCS pre ≠ INIT_FCS) :
    frameCheck (pre ++ r) = false := by
  rw [Bool.eq_false_iff, ne_eq, frameCheck_iff, fcs_append, ← (frameCheck_iff r).1 hr]
  exact fun h => hpre (fcs_seed_injective r h)

/-- One to eight FLAGs change the register. -/
theorem fcs_replicate_flag_ne : ∀ k < 9, 1 ≤ k → Machine.fcs INIT_FCS (List.replicate k FLAG) ≠ INIT_FCS := by decide +kernel

end Sys2Proof.Proofs
end

section
/-! Proofs for spec/44_validator.md R180, R181 and R190: VALIDATE, its strip, and PARSE_HEADER. -/

namespace Sys2Proof.Proofs

open Sys2Proof.Machine
open Sys2Proof.SpecText (wire)

/-- Behind `k` further FLAGs, all but the first FLAG reach the de-stuffer, which keeps them in front of the raw frame. -/
theorem destuff_stripFlags_replicate_flag_wire (cfg : Config) (id : Nat) (t : Byte) (p : Bytes) (k : Nat) :
    destuff (stripFlags (List.replicate k FLAG ++ wire cfg id t p)) =
      (List.replicate k FLAG ++ rawFrame cfg id t p, false) := by
  have hframe : List.replicate k FLAG ++ wire cfg id t p =
      List.replicate (k + 1) FLAG ++ (Machine.stuff (rawFrame cfg id t p) ++ List.replicate 1 FLAG) := by
    rw [← wrapFrame_rawFrame, wrapFrame, List.replicate_succ', List.append_assoc]
    rfl
  rw [hframe, stripFlags_replicate_flag, destuff_replicate_flag_append, List.replicate_zero, List.append_nil, destuff_stuff]

/-- R180's corner case: the FLAGs left in front of the raw frame put the register into another state than the initial one, and
from that the frame does not check. -/
theorem exec_validate_replicate_flag_wire (cfg : Config) (id : Nat) (t : Byte) (p : Bytes) {k : Nat} (h1 : 1 ≤ k) (h8 : k ≤ 8)
    (s : State) : exec (.validate (List.replicate k FLAG ++ wire cfg id t p)) s = .next (s.respond (.error .badFcs)) := by
  apply exec_validate_badFcs
  rw [destuff_stripFlags_replicate_flag_wire]
  exact .inr (frameCheck_append_eq_false (frameCheck_rawFrame cfg id t p) (fcs_replicate_flag_ne k (by omega) h1))

/-- Settles O39: the machine's strip and result are R180's pseudocode; a frame behind further FLAGs fails because the CRC is
injective in its seed. -/
theorem validateOperation : Obligations.ValidateOperation := by
  refine ⟨?result, fun _ hn => decodeRecord_validate hn, ?strip, ?leading, by decide, by decide, by decide, by decide, by decide⟩
  case result =>
    intro s frame
    rw [exec_validate, specText_validate_eq]
    rcases execValidate_cases frame s with ⟨hbad, h⟩ | ⟨hok, hcheck, h⟩
    · rw [h, if_pos hbad, respond_eq_returned]
    · rw [h, if_neg (by simp [hok, hcheck]), respond_eq_returned]
  case strip =>
    intro f hhead hlast
    simp only [specText_strip_eq]
    refine ⟨stripFlags_of_undelimited hhead hlast, stripFlags_flag_cons hlast, stripFlags_append_flag hhead,
      stripFlags_delimited f, fun m n => (stripFlags_replicate_flag f m n).trans ?_⟩
    split
    case isTrue hempty => rw [hempty, List.nil_append, List.replicate_append_replicate, FLAG]
    case isFalse => rfl
  case leading =>
    intro s cfg id t p k _ h1 h8
    exact exec_validate_replicate_flag_wire cfg id t p h1 h8 s

/-- Settles O42: a body of fewer than four bytes is truncated, and any other is its four header bytes and the payload. -/
theorem parseHeaderOperation : Obligations.ParseHeaderOperation := by
  refine ⟨fun s body h => exec_parseHeader_short h s, ?header, fun _ hn => decodeRecord_parseHeader hn,
    fun s a c i t => exec_parseHeader_cons a c i t [] s, fun s => exec_parseHeader_cons _ _ _ _ _ s,
    fun s => exec_parseHeader_short (by decide) s⟩
  intro s body h
  obtain ⟨a, c, i, t, payload, rfl⟩ := eq_header_cons_of_length h
  exact exec_parseHeader_cons a c i t payload s

end Sys2Proof.Proofs
end

section
/-! Proofs for spec/60_exceptions.md R203: ENCODE reports the first cause that applies. -/

namespace Sys2Proof.Proofs

open Sys2Proof.Machine

/-- ENCODE answers FrameTooLarge for the ids in the domain whose raw frame exceeds the ceiling, and for nothing else (R133). -/
theorem exec_encode_eq_frameTooLarge_iff (id : Nat) (t : Byte) (p : Bytes) (s : State) :
    exec (.encode id t p) s = .next (s.respond (.error .frameTooLarge)) ↔
      id ≤ 63 ∧ s.cfg.maxRawFrame < 4 + p.length + 2 := by
  refine ⟨fun heq => ?_, fun ⟨hid, hlen⟩ => exec_encode_frameTooLarge hid hlen t⟩
  rcases exec_encode_cases id t p s with ⟨-, h⟩ | ⟨hid, hlen, -⟩ | ⟨-, -, h⟩
  · cases respond_inj (Host.Outcome.next.inj (h.symm.trans heq))
  · exact ⟨hid, hlen⟩
  · cases respond_inj (Host.Outcome.next.inj (h.symm.trans heq))

/-- ENCODE answers bytes for the ids in the domain whose raw frame fits under the ceiling, and for nothing else. -/
theorem exec_encode_eq_bytes_iff (id : Nat) (t : Byte) (p : Bytes) (s : State) :
    (∃ w : Bytes, exec (.encode id t p) s = .next (s.respond (.bytes w))) ↔
      id ≤ 63 ∧ 4 + p.length + 2 ≤ s.cfg.maxRawFrame := by
  refine ⟨fun ⟨w, heq⟩ => ?_, fun ⟨hid, hlen⟩ => ⟨_, exec_encode_wire hid hlen t⟩⟩
  rcases exec_encode_cases id t p s with ⟨-, h⟩ | ⟨-, -, h⟩ | ⟨hid, hlen, -⟩
  · cases respond_inj (Host.Outcome.next.inj (h.symm.trans heq))
  · cases respond_inj (Host.Outcome.next.inj (h.symm.trans heq))
  · exact ⟨hid, hlen⟩

/-- Settles O19: the conditions of R137's checks exclude one another and the three results differ, so each result tells its
condition. -/
theorem encodeCheckOrder : Obligations.EncodeCheckOrder := by
  refine ⟨fun s id t p => exec_encode_eq_invalidAddress_iff id t p s, fun s id t p => exec_encode_eq_frameTooLarge_iff id t p s,
    fun s id t p => exec_encode_eq_bytes_iff id t p s, ?ceiling, fun s t p _ => exec_encode_invalidAddress le_rfl t p s⟩
  intro s id t p hmax hid
  have hceiling : s.cfg.maxRawFrame = 256 := hmax
  refine (exec_encode_eq_bytes_iff id t p s).trans ?_
  omega

end Sys2Proof.Proofs
end

section
/-! Proofs for spec/70_reset_and_hazards.md R230: DEC_RESET. -/

namespace Sys2Proof.Proofs

open Sys2Proof.Machine
open Sys2Proof.SpecText (Ready served fresh runAll)

/-- DEC_RESET on an instance that is ready. -/
theorem exec_decReset_ready {s : State} {d : Nat} {D : Decoder} (h : Ready s d D) :
    exec (.decReset d) s = .next (served s d fresh .done) := by
  rw [exec_decReset, execDecReset_ready h.1 (isOpen_of_ready h), respond_setDecoder_eq_served, reset_eq_fresh]

/-- The record of DEC_RESET (spec/30_encoding.md R73). -/
theorem decodeRecord_decReset {d : Nat} (hd : d < 256) : decodeRecord [0x06#8, BitVec.ofNat 8 d] = .ok (.decReset d) := by
  apply decodeRecord_of_front
  simp [decodeFront, Nat.mod_eq_of_lt hd]

/-- Serving an instance leaves the other instances as they were. -/
theorem served_decoders_ne {d e : Nat} (hne : e ≠ d) (s : State) (D : Decoder) (r : Response) :
    (served s d D r).decoders[e]? = s.decoders[e]? := List.getElem?_set_ne hne.symm

/-- A served instance is ready for the next operation. -/
theorem ready_served {s : State} {d : Nat} {D : Decoder} (h : Ready s d D) (D' : Decoder) (r : Response) :
    Ready (served s d D' r) d D' := ready_setDecoder h D'

/-- An operation that completes hands its state to the rest of the list. -/
theorem runAll_cons_of_next {i : Instr} {s t : State} (h : exec i s = .next t) (rest : List Instr) :
    runAll (i :: rest) s = runAll rest t := by
  rw [runAll, h]

/-- R230's example: of two FLAGs the second only confirms the delimiter, and the byte after them starts the payload. -/
theorem feedLoop_fresh_flag_flag_byte {cfg : Config} (hcap : 3 ≤ cfg.bufCap) :
    feedLoop cfg fresh [0x7E#8, 0x7E#8, 0x41#8] =
      { dec := { st := .payload, buf := [0x7E#8, 0x41#8], esc := false }, frames := [], overflow := false } := by
  have hidle : rxByte fresh 0x7E#8 = ({ st := .confirming, buf := [0x7E#8], esc := false }, []) := rfl
  have hconfirming : rxByte { st := .confirming, buf := [0x7E#8], esc := false } 0x7E#8 =
      ({ st := .confirmed, buf := [0x7E#8], esc := false }, []) := rfl
  have hconfirmed : rxByte { st := .confirmed, buf := [0x7E#8], esc := false } 0x41#8 =
      ({ st := .payload, buf := [0x7E#8, 0x41#8], esc := false }, []) := rfl
  have hempty : fresh.buf.length < cfg.bufCap := Nat.lt_of_lt_of_le (by decide) hcap
  have hone : [0x7E#8].length < cfg.bufCap := Nat.lt_of_lt_of_le (by decide) hcap
  rw [feedLoop_notFull hempty, hidle, feedLoop_notFull hone, hconfirming, feedLoop_notFull hone, hconfirmed, feedLoop_nil]
  rfl

/-- Settles O44: DEC_RESET on a ready instance serves it the reset state, which is what a reset instance already holds. -/
theorem decResetOperation : Obligations.DecResetOperation := by
  refine ⟨fun s d D h => exec_decReset_ready h, fun d hd => decodeRecord_decReset hd, ?unchanged, ?others,
    fun s d hnone => exec_decReset_absent hnone, ?sample⟩
  case unchanged =>
    intro s d h
    rw [exec_decReset_ready h, ← respond_setDecoder_eq_served, setDecoder_self h.1, respond_eq_returned]
  case others =>
    intro s d e D h hne
    exact ⟨served s d fresh .done, exec_decReset_ready h, served_decoders_ne hne s fresh .done⟩
  case sample =>
    intro s d h hcap
    have hfeed := exec_feed_ready h [0x7E#8, 0x7E#8, 0x41#8]
    rw [feedLoop_fresh_flag_flag_byte hcap] at hfeed
    have hreset := exec_decReset_ready
      (ready_served h { st := .payload, buf := [0x7E#8, 0x41#8], esc := false } (.frames [] false))
    exact ⟨hfeed, _, by rw [runAll_cons_of_next hfeed, runAll_cons_of_next hreset, runAll], exec_decReset_next hreset⟩

end Sys2Proof.Proofs
end

section
/-! What the stuffer guarantees of its output (spec/41_stuffing.md R112). -/

namespace Sys2Proof.Proofs

open Sys2Proof.Machine

/-! ### The stuffer's output -/

theorem flag_notMem_stuffByte (b : Byte) : FLAG ∉ stuffByte b := by
  rcases stuffByte_cases b with ⟨-, h⟩ | ⟨-, h⟩ | ⟨hf, -, h⟩ <;> rw [h]
  · decide
  · decide
  · simpa using Ne.symm hf

theorem flag_notMem_stuff (x : Bytes) : FLAG ∉ Machine.stuff x := by
  induction x with
  | nil => exact List.not_mem_nil
  | cons b rest ih => simp [flag_notMem_stuffByte, ih]

theorem stuff_append (a b : Bytes) : Machine.stuff (a ++ b) = Machine.stuff a ++ Machine.stuff b := by
  simp only [stuff_eq_flatMap_stuffOne, List.flatMap_append]

theorem stuff_singleton (b : Byte) : Machine.stuff [b] = stuffByte b := List.append_nil _

/-- A reserved byte costs one byte more (R112 item 3). -/
theorem stuffByte_length (b : Byte) : (stuffByte b).length = 1 + [b].countP (fun b => b == FLAG || b == ESCAPE) := by
  rcases stuffByte_cases b with ⟨rfl, h⟩ | ⟨rfl, h⟩ | ⟨hf, he, h⟩ <;> rw [h]
  · rfl
  · rfl
  · simp [hf, he]

theorem stuff_length (x : Bytes) :
    (Machine.stuff x).length = x.length + x.countP (fun b => b == FLAG || b == ESCAPE) := by
  induction x with
  | nil => rfl
  | cons b rest ih =>
    rw [stuff_cons, List.length_append, stuffByte_length, ih, List.length_cons, ← List.singleton_append (l := rest),
      List.countP_append]
    omega

theorem length_le_stuff_length (x : Bytes) : x.length ≤ (Machine.stuff x).length := by
  rw [stuff_length]
  omega

theorem stuff_length_le (x : Bytes) : (Machine.stuff x).length ≤ 2 * x.length := by
  have hcount := List.countP_le_length (p := fun b => b == FLAG || b == ESCAPE) (l := x)
  rw [stuff_length]
  omega

theorem escape_notMem_tail_stuffByte (v : Byte) : ESCAPE ∉ (stuffByte v).tail := by
  rcases stuffByte_cases v with ⟨-, h⟩ | ⟨-, h⟩ | ⟨-, -, h⟩ <;> rw [h]
  · decide
  · decide
  · exact List.not_mem_nil

/-- An ESCAPE in the output for one byte is its first byte, and one byte follows. -/
theorem stuffByte_eq_append_escape {v : Byte} {p q : Bytes} (h : stuffByte v = p ++ ESCAPE :: q) :
    p = [] ∧ ∃ c, (c = ESC_FLAG ∨ c = ESC_ESCAPE) ∧ stuffByte v = [ESCAPE, c] ∧ q = [c] := by
  cases p with
  | nil =>
    refine ⟨rfl, ?_⟩
    rcases stuffByte_cases v with ⟨-, hv⟩ | ⟨-, hv⟩ | ⟨-, he, hv⟩ <;> rw [hv] at h ⊢
    · exact ⟨ESC_FLAG, .inl rfl, rfl, (List.cons.inj h).2.symm⟩
    · exact ⟨ESC_ESCAPE, .inr rfl, rfl, (List.cons.inj h).2.symm⟩
    · exact absurd (List.cons.inj h).1 he
  | cons a p =>
    refine absurd ?_ (escape_notMem_tail_stuffByte v)
    simp [h]

/-- Wherever an ESCAPE stands in the output, it and the byte after it are the output for one input byte (R112 item 2). -/
theorem stuff_eq_append_escape {x p q : Bytes} (h : Machine.stuff x = p ++ ESCAPE :: q) :
    ∃ (x1 x2 : Bytes) (v c : Byte), x = x1 ++ v :: x2 ∧ (c = ESC_FLAG ∨ c = ESC_ESCAPE) ∧
      p = Machine.stuff x1 ∧ Machine.stuff [v] = [ESCAPE, c] ∧ q = c :: Machine.stuff x2 := by
  induction x generalizing p with
  | nil => simp at h
  | cons b rest ih =>
    rw [stuff_cons, List.append_eq_append_iff] at h
    rcases h with ⟨p', rfl, hrest⟩ | ⟨q', hb, hq⟩
    · obtain ⟨x1, x2, v, c, rfl, hc, rfl, hv, hq⟩ := ih hrest
      exact ⟨b :: x1, x2, v, c, rfl, hc, rfl, hv, hq⟩
    · cases q' with
      | nil =>
        obtain ⟨x1, x2, v, c, rfl, hc, hp, hv, rfl⟩ := ih (p := []) hq.symm
        exact ⟨b :: x1, x2, v, c, rfl, hc, by rw [stuff_cons, ← hp, hb, List.append_nil, List.append_nil], hv, rfl⟩
      | cons e q' =>
        obtain ⟨rfl, rfl⟩ := List.cons.inj hq
        obtain ⟨rfl, c, hc, hv, rfl⟩ := stuffByte_eq_append_escape hb
        exact ⟨[], rest, b, c, rfl, hc, rfl, by rw [stuff_singleton, hv], rfl⟩

end Sys2Proof.Proofs
end

section
/-! The encoder's frame: its length, and what VALIDATE makes of a stuffed raw frame with and without its delimiters
(spec/42_encoder.md R138, spec/44_validator.md R185). -/

namespace Sys2Proof.Proofs

open Sys2Proof.Machine
open Sys2Proof.SpecText (wire)

theorem fcsBytes_length (f : U16) : (fcsBytes f).length = 2 := rfl

/-- Header, payload and FCS (R61). -/
theorem rawFrame_length (cfg : Config) (id : Nat) (t : Byte) (p : Bytes) : (rawFrame cfg id t p).length = p.length + 6 := by
  simp [rawFrame, withFcs, frameBody, fcsBytes_length]

theorem wire_eq (cfg : Config) (id : Nat) (t : Byte) (p : Bytes) :
    wire cfg id t p = FLAG :: (Machine.stuff (rawFrame cfg id t p) ++ [FLAG]) := (wrapFrame_rawFrame cfg id t p).symm

theorem dropFcs_rawFrame (cfg : Config) (id : Nat) (t : Byte) (p : Bytes) :
    dropFcs (rawFrame cfg id t p) = SpecText.body cfg id t p := by
  rw [dropFcs, rawFrame, withFcs, List.length_append, fcsBytes_length, FCS_LEN, Nat.add_sub_cancel, List.take_left,
    frameBody, addressByte_eq_addr, SpecText.body]

theorem exec_validate_ok {frame : Bytes} (hok : (destuff (stripFlags frame)).2 = false)
    (hcheck : frameCheck (destuff (stripFlags frame)).1 = true) (s : State) :
    exec (.validate frame) s = .next (s.respond (.bytes (dropFcs (destuff (stripFlags frame)).1))) := by
  rw [exec_validate]
  rcases execValidate_cases frame s with ⟨hbad, -⟩ | ⟨-, -, h⟩
  · simp [hok, hcheck] at hbad
  · exact h

/-- A frame that strips to a stuffed raw frame gives back header and payload. -/
theorem exec_validate_of_stripFlags {frame : Bytes} {cfg : Config} {id : Nat} {t : Byte} {p : Bytes}
    (h : stripFlags frame = Machine.stuff (rawFrame cfg id t p)) (s : State) :
    exec (.validate frame) s = .next (s.respond (.bytes (SpecText.body cfg id t p))) := by
  have hdestuff : destuff (stripFlags frame) = (rawFrame cfg id t p, false) := by rw [h, destuff_stuff]
  rw [exec_validate_ok (by rw [hdestuff]) (by rw [hdestuff]; exact frameCheck_rawFrame cfg id t p), hdestuff,
    dropFcs_rawFrame]

theorem exec_validate_wire (cfg : Config) (id : Nat) (t : Byte) (p : Bytes) (s : State) :
    exec (.validate (wire cfg id t p)) s = .next (s.respond (.bytes (SpecText.body cfg id t p))) :=
  exec_validate_of_stripFlags (by rw [wire_eq, stripFlags_delimited]) s

theorem head?_stuff_ne_flag (x : Bytes) : (Machine.stuff x).head? ≠ some FLAG := fun h =>
  flag_notMem_stuff x (List.mem_of_head? h)

theorem getLast?_stuff_ne_flag (x : Bytes) : (Machine.stuff x).getLast? ≠ some FLAG := fun h =>
  flag_notMem_stuff x (List.mem_of_getLast? h)

end Sys2Proof.Proofs
end

section
/-! Proofs for spec/41_stuffing.md R112 and R117: the stuffer's guarantees and the round trip. -/

namespace Sys2Proof.Proofs

open Sys2Proof.Machine

/-- Settles O8: each guarantee holds of the output for one byte, and the output for a sequence is those outputs in a row. -/
theorem stufferGuarantees : Obligations.StufferGuarantees :=
  ⟨flag_notMem_stuff, fun _ _ _ h => stuff_eq_append_escape h, stuff_length, stuff_append⟩

/-- Settles O13: STUFF answers the stuffed bytes, which the de-stuffer turns back. -/
theorem stuffDestuffRoundTrip : Obligations.StuffDestuffRoundTrip := by
  intro x s
  refine ⟨Machine.stuff x, exec_stuff x s, ?_⟩
  rw [exec_destuff, destuff_stuff, respond_eq_returned]

end Sys2Proof.Proofs
end

section
/-! Proofs for spec/42_encoder.md R138 and spec/44_validator.md R185: what the encoder's frame looks like, and that VALIDATE
gives header and payload back. -/

namespace Sys2Proof.Proofs

open Sys2Proof.Machine

/-- Settles O21: ENCODE answers the wire frame, which strips to the stuffed raw frame. -/
theorem encodeThenValidate : Obligations.EncodeThenValidate := fun s s' id t p hid hlen =>
  ⟨SpecText.wire s.cfg id t p, exec_encode_wire hid hlen t, exec_validate_wire s.cfg id t p s'⟩

/-- Settles O20: the bytes that ENCODE returns are the wire frame, and the stuffer's guarantees hold of its interior. -/
theorem encodeOutputProperties : Obligations.EncodeOutputProperties := by
  intro s id t p w h
  obtain ⟨hid, hlen⟩ := (exec_encode_eq_bytes_iff id t p s).1 ⟨w, h⟩
  obtain rfl : w = SpecText.wire s.cfg id t p :=
    Response.bytes.inj (respond_inj (Host.Outcome.next.inj (h.symm.trans (exec_encode_wire hid hlen t))))
  have hlower := length_le_stuff_length (rawFrame s.cfg id t p)
  have hupper := stuff_length_le (rawFrame s.cfg id t p)
  rw [rawFrame_length] at hlower hupper
  rw [← rawFrame_eq_raw, wire_eq]
  refine ⟨⟨Machine.stuff (rawFrame s.cfg id t p), rfl, flag_notMem_stuff _, destuff_stuff _⟩, frameCheck_rawFrame ..,
    ?lower, ?upper, ?function⟩
  case lower =>
    simp only [List.length_cons, List.length_append, List.length_nil]
    omega
  case upper =>
    simp only [List.length_cons, List.length_append, List.length_nil]
    omega
  case function =>
    intro s' hcfg
    rw [← hcfg] at hlen ⊢
    rw [exec_encode_wire hid hlen, wire_eq, respond_eq_returned]

/-- Settles O40: the stuffed raw frame holds no FLAG, so each of the four forms strips to it. -/
theorem validateDelimiterForms : Obligations.ValidateDelimiterForms := by
  intro s cfg id t p _ w v hv
  have hhead := head?_stuff_ne_flag (rawFrame cfg id t p)
  have hlast := getLast?_stuff_ne_flag (rawFrame cfg id t p)
  have hw : w = FLAG :: (Machine.stuff (rawFrame cfg id t p) ++ [FLAG]) := wire_eq cfg id t p
  apply exec_validate_of_stripFlags
  simp only [List.mem_cons, List.not_mem_nil, or_false] at hv
  rcases hv with rfl | rfl | rfl | rfl <;> rw [hw]
  · exact stripFlags_delimited _
  · rw [List.drop_one, List.tail_cons, List.dropLast_concat]
    exact stripFlags_of_undelimited hhead hlast
  · exact stripFlags_append_flag hhead
  · rw [← List.cons_append, List.dropLast_concat]
    exact stripFlags_flag_cons hlast

end Sys2Proof.Proofs
end

section
/-! A FEED of two pieces in a row (spec/43_stream_decoder.md R161), and FEEDs without an overflow, put together piece by piece:
what a stuffed sequence does to an instance in each state (R162, R163). -/

namespace Sys2Proof.Proofs

open Sys2Proof.Machine
open Sys2Proof.SpecText (RowCondition HasOrdinaryByte fresh afterFrame)

/-! ### Two pieces -/

/-- Nothing of `chunk` is dropped: an overflow does not drop the rest, or there is none. -/
def KeepsAll (cfg : Config) (D : Decoder) (chunk : Bytes) : Prop :=
  cfg.overflowDropsRestOfChunk = false ∨ (feedLoop cfg D chunk).overflow = false

/-- After a piece of which nothing is dropped, the loop goes on from the state it left. -/
theorem feedLoop_append {cfg : Config} {D : Decoder} {a : Bytes} (h : KeepsAll cfg D a) (b : Bytes) :
    feedLoop cfg D (a ++ b) =
      { dec := (feedLoop cfg (feedLoop cfg D a).dec b).dec,
        frames := (feedLoop cfg D a).frames ++ (feedLoop cfg (feedLoop cfg D a).dec b).frames,
        overflow := (feedLoop cfg D a).overflow || (feedLoop cfg (feedLoop cfg D a).dec b).overflow } := by
  induction a generalizing D with
  | nil => simp
  | cons x a ih =>
    rcases Nat.lt_or_ge D.buf.length cfg.bufCap with hroom | hfull
    · simp only [KeepsAll, feedLoop_notFull hroom] at h
      simp [feedLoop_notFull hroom, ih h]
    · cases hdrop : cfg.overflowDropsRestOfChunk with
      | true => simp [KeepsAll, hdrop, feedLoop_full_drop hfull hdrop] at h
      | false => simp [feedLoop_full_resume hfull hdrop, ih (.inl hdrop)]

/-- After an overflow that drops the rest, whatever follows in the chunk is dropped. -/
theorem feedLoop_append_of_overflow {cfg : Config} {D : Decoder} {a : Bytes} (hdrop : cfg.overflowDropsRestOfChunk = true)
    (hovf : (feedLoop cfg D a).overflow = true) (b : Bytes) : feedLoop cfg D (a ++ b) = feedLoop cfg D a := by
  induction a generalizing D with
  | nil => cases hovf
  | cons x a ih =>
    rcases Nat.lt_or_ge D.buf.length cfg.bufCap with hroom | hfull
    · simp only [feedLoop_notFull hroom] at hovf
      simp [feedLoop_notFull hroom, ih hovf]
    · simp [feedLoop_full_drop hfull hdrop]

/-- If nothing of two pieces is dropped, nothing of either is. -/
theorem KeepsAll.of_append {cfg : Config} {D : Decoder} {a b : Bytes} (h : KeepsAll cfg D (a ++ b)) :
    KeepsAll cfg D a ∧ KeepsAll cfg (feedLoop cfg D a).dec b := by
  rcases h with hdrop | hovf
  · exact ⟨.inl hdrop, .inl hdrop⟩
  · cases hdrop : cfg.overflowDropsRestOfChunk with
    | false => exact ⟨.inl hdrop, .inl hdrop⟩
    | true =>
      have ha : (feedLoop cfg D a).overflow = false := by
        by_contra htrue
        rw [Bool.not_eq_false] at htrue
        rw [feedLoop_append_of_overflow hdrop htrue, htrue] at hovf
        cases hovf
      rw [feedLoop_append (.inr ha), Bool.or_eq_false_iff] at hovf
      exact ⟨.inr ha, .inr hovf.2⟩

/-- An overflow that drops the rest leaves the reset state. -/
theorem feedLoop_dec_of_overflow {cfg : Config} {D : Decoder} {chunk : Bytes} (hdrop : cfg.overflowDropsRestOfChunk = true)
    (hovf : (feedLoop cfg D chunk).overflow = true) : (feedLoop cfg D chunk).dec = fresh := by
  induction chunk generalizing D with
  | nil => cases hovf
  | cons x rest ih =>
    rcases Nat.lt_or_ge D.buf.length cfg.bufCap with hroom | hfull
    · simp only [feedLoop_notFull hroom] at hovf ⊢
      exact ih hovf
    · rw [feedLoop_full_drop hfull hdrop]

/-! ### FEEDs without an overflow -/

/-- A FEED of `chunk` takes the instance from `D` to `D'` and emits `fs`, with no overflow. -/
def Feeds (cfg : Config) (D : Decoder) (chunk : Bytes) (fs : List Bytes) (D' : Decoder) : Prop :=
  feedLoop cfg D chunk = { dec := D', frames := fs, overflow := false }

section
variable {cfg : Config} {D D' D'' : Decoder} {a b : Bytes} {fs fs' : List Bytes}

theorem feeds_nil : Feeds cfg D [] [] D := feedLoop_nil cfg D

theorem Feeds.append (ha : Feeds cfg D a fs D') (hb : Feeds cfg D' b fs' D'') : Feeds cfg D (a ++ b) (fs ++ fs') D'' := by
  have hkeeps : KeepsAll cfg D a := .inr (by rw [ha])
  rw [Feeds, feedLoop_append hkeeps, ha, hb, Bool.false_or]

/-- Pieces that emit nothing put nothing in front of what follows. -/
theorem Feeds.append_silent (ha : Feeds cfg D a [] D') (hb : Feeds cfg D' b fs D'') : Feeds cfg D (a ++ b) fs D'' :=
  ha.append hb

/-- One byte whose row is known. -/
theorem feeds_of_condition {x : Byte} {row : RxRow} (hrow : RowCondition cfg D x row) (hovf : row ≠ .ovf) :
    Feeds cfg D [x] (rxAction row D x).2 (rxAction row D x).1 := by
  rw [Feeds, feedLoop_of_condition hrow hovf]
  simp

end

/-! ### Stuffed sequences -/

theorem stuff_eq_flatMap_stuffByte (data : Bytes) : Machine.stuff data = data.flatMap stuffByte :=
  stuff_eq_flatMap_stuffOne data

/-- A reserved byte's escape pair is stored in every state (R153, R154). -/
theorem feeds_stuffByte_reserved {cfg : Config} {st : DecState} {m : Bytes} {v : Byte} (hv : v = FLAG ∨ v = ESCAPE)
    (hroom : m.length + (stuffByte v).length ≤ cfg.bufCap) :
    Feeds cfg ⟨st, m, false⟩ (stuffByte v) [] ⟨st, m ++ stuffByte v, false⟩ := by
  obtain ⟨c, hc, hstuff⟩ : ∃ c, c ≠ ESCAPE ∧ stuffByte v = [ESCAPE, c] := by
    rcases hv with rfl | rfl
    · exact ⟨ESC_FLAG, by decide, stuffByte_flag⟩
    · exact ⟨ESC_ESCAPE, by decide, stuffByte_escape⟩
  rw [hstuff] at hroom ⊢
  have hroom2 : m.length + 2 ≤ cfg.bufCap := hroom
  have hescape : Feeds cfg ⟨st, m, false⟩ [ESCAPE] [] ⟨st, m ++ [ESCAPE], true⟩ :=
    feeds_of_condition (row := .esc) ⟨Nat.lt_of_lt_of_le (Nat.lt_add_of_pos_right (by decide)) hroom2, rfl⟩ (by decide)
  have hescaped : Feeds cfg ⟨st, m ++ [ESCAPE], true⟩ [c] [] ⟨st, m ++ [ESCAPE] ++ [c], false⟩ :=
    feeds_of_condition (row := .escd) ⟨by simp only [List.length_append, List.length_singleton]; omega, rfl, hc⟩ (by decide)
  have hpair := hescape.append hescaped
  rwa [List.append_assoc] at hpair

/-- If each byte's output leaves `kept` of it in the buffer and the state as it was, so does the output for a sequence. -/
theorem feeds_stuff_of_bytes {cfg : Config} {st : DecState} {kept : Byte → Bytes} {r m : Bytes}
    (hkept : ∀ v, (kept v).length ≤ (stuffByte v).length)
    (hbyte : ∀ v ∈ r, ∀ m : Bytes, m.length + (stuffByte v).length ≤ cfg.bufCap →
      Feeds cfg ⟨st, m, false⟩ (stuffByte v) [] ⟨st, m ++ kept v, false⟩)
    (hroom : m.length + (Machine.stuff r).length ≤ cfg.bufCap) :
    Feeds cfg ⟨st, m, false⟩ (Machine.stuff r) [] ⟨st, m ++ r.flatMap kept, false⟩ := by
  induction r generalizing m with
  | nil => simpa using feeds_nil
  | cons v r ih =>
    have hv := hkept v
    rw [stuff_cons, List.length_append] at hroom
    have hfirst := hbyte v List.mem_cons_self m (by omega)
    have hrest := ih (m := m ++ kept v) (fun w hw => hbyte w (List.mem_cons_of_mem v hw))
      (by rw [List.length_append]; omega)
    have hboth := hfirst.append hrest
    rwa [List.append_assoc] at hboth

/-- Escape pairs alone are stored in every state. -/
theorem feeds_stuff_reserved {cfg : Config} {st : DecState} {e m : Bytes} (he : ∀ v ∈ e, v = FLAG ∨ v = ESCAPE)
    (hroom : m.length + (Machine.stuff e).length ≤ cfg.bufCap) :
    Feeds cfg ⟨st, m, false⟩ (Machine.stuff e) [] ⟨st, m ++ Machine.stuff e, false⟩ := by
  have h := feeds_stuff_of_bytes (st := st) (kept := stuffByte) (fun _ => le_rfl)
    (fun v hv m hroom => feeds_stuffByte_reserved (he v hv) hroom) hroom
  rwa [← stuff_eq_flatMap_stuffByte] at h

/-- In Payload everything stuffed is stored. -/
theorem feeds_stuff_payload {cfg : Config} {r m : Bytes} (hroom : m.length + (Machine.stuff r).length ≤ cfg.bufCap) :
    Feeds cfg ⟨.payload, m, false⟩ (Machine.stuff r) [] ⟨.payload, m ++ Machine.stuff r, false⟩ := by
  have h := feeds_stuff_of_bytes (st := .payload) (kept := stuffByte) (fun _ => le_rfl) ?_ hroom
  · rwa [← stuff_eq_flatMap_stuffByte] at h
  intro v _ m hroom
  by_cases hv : v = FLAG ∨ v = ESCAPE
  · exact feeds_stuffByte_reserved hv hroom
  · obtain ⟨hf, he⟩ := not_or.1 hv
    rw [stuffByte_other hf he] at hroom ⊢
    exact feeds_of_condition (row := .payO) ⟨hroom, rfl, rfl, hf, he⟩ (by decide)

/-- The reserved bytes, as the statements of R112 and R163 select them. -/
def isReserved (b : Byte) : Bool := b == FLAG || b == ESCAPE

theorem stuff_filter_eq_flatMap (p : Byte → Bool) (r : Bytes) :
    Machine.stuff (r.filter p) = r.flatMap fun v => if p v then stuffByte v else [] := by
  induction r with
  | nil => rfl
  | cons v r ih =>
    rw [List.filter_cons, List.flatMap_cons, ← ih]
    split <;> rfl

/-- In Idle the escape pairs are stored and the ordinary bytes dropped. -/
theorem feeds_stuff_idle {cfg : Config} {r m : Bytes} (hroom : m.length + (Machine.stuff r).length ≤ cfg.bufCap) :
    Feeds cfg ⟨.idle, m, false⟩ (Machine.stuff r) [] ⟨.idle, m ++ Machine.stuff (r.filter isReserved), false⟩ := by
  have h := feeds_stuff_of_bytes (st := .idle) (kept := fun v => if isReserved v then stuffByte v else []) ?_ ?_ hroom
  · rwa [← stuff_filter_eq_flatMap] at h
  · intro v
    split
    · exact le_rfl
    · exact Nat.zero_le _
  intro v _ m hroom
  by_cases hv : v = FLAG ∨ v = ESCAPE
  · have hres : isReserved v = true := by simpa [isReserved] using hv
    simpa [hres] using feeds_stuffByte_reserved hv hroom
  · obtain ⟨hf, he⟩ := not_or.1 hv
    have hres : isReserved v = false := by simp [isReserved, hf, he]
    rw [stuffByte_other hf he] at hroom ⊢
    have hdropped : Feeds cfg ⟨.idle, m, false⟩ [v] [] ⟨.idle, m, false⟩ :=
      feeds_of_condition (row := .idleO) ⟨hroom, rfl, rfl, hf, he⟩ (by decide)
    simpa [hres] using hdropped

theorem isOrdinary_iff (b : Byte) : isOrdinary b = true ↔ b ≠ FLAG ∧ b ≠ ESCAPE := by
  simp [isOrdinary]

/-- What stands before the first ordinary byte is reserved. -/
theorem exists_first_ordinary {r : Bytes} (h : HasOrdinaryByte r) :
    ∃ (e : Bytes) (x : Byte) (u : Bytes), r = e ++ x :: u ∧ (∀ v ∈ e, v = FLAG ∨ v = ESCAPE) ∧ x ≠ FLAG ∧ x ≠ ESCAPE := by
  obtain ⟨b, hb, hord⟩ := h
  have hsome : (r.find? isOrdinary).isSome := List.find?_isSome.2 ⟨b, hb, (isOrdinary_iff b).2 hord⟩
  obtain ⟨x, hfound⟩ := Option.isSome_iff_exists.1 hsome
  obtain ⟨hx, e, u, rfl, he⟩ := List.find?_eq_some_iff_append.1 hfound
  refine ⟨e, x, u, rfl, fun v hv => ?_, (isOrdinary_iff x).1 hx⟩
  by_contra hreserved
  have hnot := he v hv
  rw [(isOrdinary_iff v).2 (not_or.1 hreserved)] at hnot
  cases hnot

/-- In Confirmed the first ordinary byte starts the payload, and everything stuffed is stored. -/
theorem feeds_stuff_confirmed {cfg : Config} {r m : Bytes} (hord : HasOrdinaryByte r)
    (hroom : m.length + (Machine.stuff r).length ≤ cfg.bufCap) :
    Feeds cfg ⟨.confirmed, m, false⟩ (Machine.stuff r) [] ⟨.payload, m ++ Machine.stuff r, false⟩ := by
  obtain ⟨e, x, u, rfl, he, hxf, hxe⟩ := exists_first_ordinary hord
  rw [stuff_append, stuff_cons, stuffByte_other hxf hxe] at hroom ⊢
  simp only [List.length_append, List.length_singleton] at hroom
  have hpairs : Feeds cfg ⟨.confirmed, m, false⟩ (Machine.stuff e) [] ⟨.confirmed, m ++ Machine.stuff e, false⟩ :=
    feeds_stuff_reserved he (by omega)
  have hfirst : Feeds cfg ⟨.confirmed, m ++ Machine.stuff e, false⟩ [x] [] ⟨.payload, m ++ Machine.stuff e ++ [x], false⟩ :=
    feeds_of_condition (row := .cfmdO) ⟨by rw [List.length_append]; omega, rfl, rfl, hxf, hxe⟩ (by decide)
  have hrest : Feeds cfg ⟨.payload, m ++ Machine.stuff e ++ [x], false⟩ (Machine.stuff u) []
      ⟨.payload, m ++ Machine.stuff e ++ [x] ++ Machine.stuff u, false⟩ :=
    feeds_stuff_payload (by simp only [List.length_append, List.length_singleton]; omega)
  have hall := hpairs.append (hfirst.append hrest)
  simpa only [List.append_assoc, List.append_nil] using hall

/-- The body of a frame and its closing FLAG, behind an opening delimiter: the buffer is emitted with both. -/
theorem feeds_stuff_flag_confirmed {cfg : Config} {r m : Bytes} (hord : HasOrdinaryByte r)
    (hroom : m.length + (Machine.stuff r).length + 1 ≤ cfg.bufCap) :
    Feeds cfg ⟨.confirmed, m, false⟩ (Machine.stuff r ++ [FLAG]) [m ++ Machine.stuff r ++ [FLAG]] afterFrame := by
  have hbody := feeds_stuff_confirmed hord (Nat.le_of_succ_le hroom)
  have hclose : Feeds cfg ⟨.payload, m ++ Machine.stuff r, false⟩ [FLAG] [m ++ Machine.stuff r ++ [FLAG]] afterFrame :=
    feeds_of_condition (row := .payF) ⟨by rw [List.length_append]; omega, rfl, rfl, rfl⟩ (by decide)
  exact hbody.append_silent hclose

end Sys2Proof.Proofs
end

section
/-! The encoder's frames fed to an instance (spec/43_stream_decoder.md R162, R163): after a frame, after one extra FLAG
from reset, and alone from reset. -/

namespace Sys2Proof.Proofs

open Sys2Proof.Machine
open Sys2Proof.SpecText (Ready HasOrdinaryByte served fresh afterFrame wire)

/-! ### Frames behind a delimiter -/

/-- The instance behind an opening FLAG that the encoder's frame follows. -/
def afterOpeningFlag : Decoder := ⟨.confirmed, [FLAG], false⟩

theorem feeds_flag_afterFrame {cfg : Config} (hcap : 1 ≤ cfg.bufCap) : Feeds cfg afterFrame [FLAG] [] afterOpeningFlag :=
  feeds_of_condition (row := .cfmgF0) ⟨hcap, rfl, rfl, rfl, rfl⟩ (by decide)

/-- From reset the first FLAG is stored, and the second confirms it. -/
theorem feeds_flag_flag_fresh {cfg : Config} (hcap : 2 ≤ cfg.bufCap) : Feeds cfg fresh [FLAG, FLAG] [] afterOpeningFlag := by
  have hfirst : Feeds cfg fresh [FLAG] [] ⟨.confirming, [FLAG], false⟩ :=
    feeds_of_condition (row := .idleF) ⟨Nat.lt_of_lt_of_le (by decide) hcap, rfl, rfl, rfl⟩ (by decide)
  have hsecond : Feeds cfg ⟨.confirming, [FLAG], false⟩ [FLAG] [] afterOpeningFlag :=
    feeds_of_condition (row := .cfmgF1) ⟨hcap, rfl, rfl, rfl, by decide⟩ (by decide)
  exact hfirst.append hsecond

section
variable {cfg : Config} {id : Nat} {t : Byte} {p : Bytes}

theorem wire_length (cfg : Config) (id : Nat) (t : Byte) (p : Bytes) :
    (wire cfg id t p).length = (Machine.stuff (rawFrame cfg id t p)).length + 2 := by
  simp [wire_eq]

/-- Behind its opening FLAG a frame is emitted as it is. -/
theorem feeds_tail_wire_afterOpeningFlag (hord : HasOrdinaryByte (SpecText.raw cfg id t p))
    (hcap : (wire cfg id t p).length ≤ cfg.bufCap) :
    Feeds cfg afterOpeningFlag (Machine.stuff (rawFrame cfg id t p) ++ [FLAG]) [wire cfg id t p] afterFrame := by
  rw [wire_length] at hcap
  rw [← rawFrame_eq_raw] at hord
  rw [wire_eq]
  exact feeds_stuff_flag_confirmed hord (by rw [List.length_singleton]; omega)

theorem feeds_wire_afterFrame (hord : HasOrdinaryByte (SpecText.raw cfg id t p))
    (hcap : (wire cfg id t p).length ≤ cfg.bufCap) : Feeds cfg afterFrame (wire cfg id t p) [wire cfg id t p] afterFrame := by
  have h := (feeds_flag_afterFrame (by rw [wire_length] at hcap; omega)).append_silent (feeds_tail_wire_afterOpeningFlag hord hcap)
  rwa [List.singleton_append, ← wire_eq] at h

theorem feeds_flag_wire_fresh (hord : HasOrdinaryByte (SpecText.raw cfg id t p))
    (hcap : (wire cfg id t p).length ≤ cfg.bufCap) :
    Feeds cfg fresh (FLAG :: wire cfg id t p) [wire cfg id t p] afterFrame := by
  have h := (feeds_flag_flag_fresh (by rw [wire_length] at hcap; omega)).append_silent (feeds_tail_wire_afterOpeningFlag hord hcap)
  rwa [List.cons_append, List.singleton_append, ← wire_eq] at h

end

/-- Frames of which each leaves the state after a frame come out as they went in. -/
theorem feeds_flatten_afterFrame {cfg : Config} {ws : List Bytes} (h : ∀ w ∈ ws, Feeds cfg afterFrame w [w] afterFrame) :
    Feeds cfg afterFrame ws.flatten ws afterFrame := by
  induction ws with
  | nil => exact feeds_nil
  | cons w ws ih =>
    exact (h w List.mem_cons_self).append (ih fun v hv => h v (List.mem_cons_of_mem w hv))

/-- A FEED with no overflow, as the answer of the operation. -/
theorem exec_feed_of_feeds {s : State} {d : Nat} {D D' : Decoder} {chunk : Bytes} {fs : List Bytes} (h : Ready s d D)
    (hfeeds : Feeds s.cfg D chunk fs D') : exec (.feed d chunk) s = .next (served s d D' (.frames fs false)) := by
  rw [exec_feed_ready h, hfeeds]

/-! ### One frame from reset -/

/-- No frame is begun: the instance has seen at most the FLAG that may open one. -/
def NoFrameBegun (D : Decoder) : Prop := D.st = .idle ∨ D.st = .confirming

/-- Where no frame is begun no byte emits one, and only a FLAG can begin one. -/
theorem rxByte_noFrameBegun {D : Decoder} (h : NoFrameBegun D) (b : Byte) :
    (rxByte D b).2 = [] ∧ (b ≠ FLAG → NoFrameBegun (rxByte D b).1) := by
  unfold NoFrameBegun at h ⊢
  rcases rxByte_cases D b with ⟨-, e⟩ | ⟨-, -, e⟩ | ⟨-, -, hrow⟩
  · rw [e]
    exact ⟨rfl, fun _ => h⟩
  · rw [e]
    exact ⟨rfl, fun _ => h⟩
  · rcases hrow with ⟨-, -, e⟩ | ⟨-, -, e⟩ | ⟨-, hf, -, e⟩ | ⟨-, hf, -, e⟩ | ⟨-, -, e⟩ | ⟨hst, -⟩ | ⟨hst, -⟩ | ⟨hst, -⟩ |
      ⟨hst, -⟩
    · rw [e]
      exact ⟨rfl, fun _ => .inr rfl⟩
    · rw [e]
      exact ⟨rfl, fun _ => h⟩
    · rw [e]
      exact ⟨rfl, fun hb => absurd hf hb⟩
    · rw [e]
      exact ⟨rfl, fun hb => absurd hf hb⟩
    · rw [e]
      exact ⟨rfl, fun _ => .inl rfl⟩
    all_goals simp [hst] at h

/-- One turn of the loop where no frame is begun: the byte emits nothing, whether the buffer has room or not. -/
theorem feedLoop_cons_frames_eq_nil {cfg : Config} {D : Decoder} {b : Byte} {rest : Bytes} (h : NoFrameBegun D)
    (hrest : ∀ D' ∈ [D, fresh], (feedLoop cfg (rxByte D' b).1 rest).frames = []) :
    (feedLoop cfg D (b :: rest)).frames = [] := by
  rcases Nat.lt_or_ge D.buf.length cfg.bufCap with hroom | hfull
  · simp [feedLoop_notFull hroom, (rxByte_noFrameBegun h b).1, hrest]
  · cases hdrop : cfg.overflowDropsRestOfChunk with
    | true => simp [feedLoop_full_drop hfull hdrop]
    | false => simp [feedLoop_full_resume hfull hdrop, hrest]

theorem noFrameBegun_fresh : NoFrameBegun fresh := .inl rfl

/-- Where no frame is begun, bytes up to and with the next FLAG emit nothing. -/
theorem feedLoop_append_flag_frames {cfg : Config} {D : Decoder} {c : Bytes} (h : NoFrameBegun D) (hc : FLAG ∉ c) :
    (feedLoop cfg D (c ++ [FLAG])).frames = [] := by
  induction c generalizing D with
  | nil => exact feedLoop_cons_frames_eq_nil h fun _ _ => rfl
  | cons b c ih =>
    obtain ⟨hb, hc⟩ := List.ne_and_not_mem_of_not_mem_cons hc
    refine feedLoop_cons_frames_eq_nil h fun D' hD' => ih ?_ hc
    have hbegun : NoFrameBegun D' := by
      simp only [List.mem_cons, List.not_mem_nil, or_false] at hD'
      rcases hD' with rfl | rfl
      · exact h
      · exact noFrameBegun_fresh
    exact (rxByte_noFrameBegun hbegun b).2 hb.symm

/-- From reset the opening FLAG of a frame only begins to confirm a delimiter, and its closing FLAG confirms nothing further. -/
theorem feedLoop_wire_fresh_frames (cfg : Config) (id : Nat) (t : Byte) (p : Bytes) :
    (feedLoop cfg fresh (wire cfg id t p)).frames = [] := by
  rw [wire_eq]
  refine feedLoop_cons_frames_eq_nil noFrameBegun_fresh fun D' hD' => ?_
  obtain rfl : D' = fresh := by simpa using hD'
  exact feedLoop_append_flag_frames (.inr rfl) (flag_notMem_stuff _)

/-! ### What the lost frame leaves -/

theorem stuff_filter_length_le (q : Byte → Bool) (r : Bytes) :
    (Machine.stuff (r.filter q)).length ≤ (Machine.stuff r).length := by
  rw [stuff_eq_flatMap_stuffByte, stuff_eq_flatMap_stuffByte]
  exact (List.filter_sublist.flatMap stuffByte).length_le

/-- The lost frame: its first ordinary byte sends the instance back to Idle, where only the escape pairs after it are kept, and its
closing FLAG is taken for an opening one. -/
theorem feeds_lost_wire {cfg : Config} {id : Nat} {t : Byte} {p e u : Bytes} {x : Byte}
    (hraw : rawFrame cfg id t p = e ++ x :: u) (he : ∀ v ∈ e, v = FLAG ∨ v = ESCAPE) (hxf : x ≠ FLAG) (hxe : x ≠ ESCAPE)
    (hcap : (wire cfg id t p).length ≤ cfg.bufCap) :
    Feeds cfg fresh (wire cfg id t p) [] ⟨.confirming, Machine.stuff (u.filter isReserved) ++ [FLAG], false⟩ := by
  have hstuff : Machine.stuff (rawFrame cfg id t p) = Machine.stuff e ++ ([x] ++ Machine.stuff u) := by
    rw [hraw, stuff_append, stuff_cons, stuffByte_other hxf hxe]
  rw [wire_length, hstuff] at hcap
  simp only [List.length_append, List.length_singleton] at hcap
  have hkept : (Machine.stuff (u.filter isReserved)).length ≤ (Machine.stuff u).length := stuff_filter_length_le _ u
  have hopen : Feeds cfg fresh [FLAG] [] ⟨.confirming, [FLAG], false⟩ :=
    feeds_of_condition (row := .idleF) ⟨Nat.lt_of_lt_of_le (Nat.zero_lt_succ _) hcap, rfl, rfl, rfl⟩ (by decide)
  have hpairs : Feeds cfg ⟨.confirming, [FLAG], false⟩ (Machine.stuff e) [] ⟨.confirming, [FLAG] ++ Machine.stuff e, false⟩ :=
    feeds_stuff_reserved he (by rw [List.length_singleton]; omega)
  have hordinary : Feeds cfg ⟨.confirming, [FLAG] ++ Machine.stuff e, false⟩ [x] [] fresh :=
    feeds_of_condition (row := .cfmgO)
      ⟨by rw [List.length_append, List.length_singleton]; omega, rfl, rfl, hxf, hxe⟩ (by decide)
  have hidle : Feeds cfg fresh (Machine.stuff u) [] ⟨.idle, [] ++ Machine.stuff (u.filter isReserved), false⟩ :=
    feeds_stuff_idle (by rw [List.length_nil]; omega)
  have hclose : Feeds cfg ⟨.idle, Machine.stuff (u.filter isReserved), false⟩ [FLAG] []
      ⟨.confirming, Machine.stuff (u.filter isReserved) ++ [FLAG], false⟩ :=
    feeds_of_condition (row := .idleF) ⟨Nat.lt_of_le_of_lt hkept (by omega), rfl, rfl, rfl⟩ (by decide)
  have hall := hopen.append_silent (hpairs.append_silent (hordinary.append_silent (hidle.append_silent hclose)))
  rw [wire_eq, hstuff, ← List.singleton_append]
  simpa only [List.append_assoc] using hall

/-- A frame that meets a buffer in Confirming is emitted behind it, without its opening FLAG. -/
theorem feeds_wire_confirming {cfg : Config} {id : Nat} {t : Byte} {p m : Bytes}
    (hord : HasOrdinaryByte (SpecText.raw cfg id t p)) (hm : 0 < m.length)
    (hroom : m.length + (wire cfg id t p).length ≤ cfg.bufCap) :
    Feeds cfg ⟨.confirming, m, false⟩ (wire cfg id t p) [m ++ (wire cfg id t p).drop 1] afterFrame := by
  have htail : Machine.stuff (rawFrame cfg id t p) ++ [FLAG] = (wire cfg id t p).drop 1 := by
    rw [wire_eq, List.drop_one, List.tail_cons]
  rw [wire_length] at hroom
  rw [← rawFrame_eq_raw] at hord
  have hm_lt : m.length < cfg.bufCap := by omega
  have hopen : Feeds cfg ⟨.confirming, m, false⟩ [FLAG] [] ⟨.confirmed, m, false⟩ :=
    feeds_of_condition (row := .cfmgF1) ⟨hm_lt, rfl, rfl, rfl, hm⟩ (by decide)
  have h := hopen.append_silent (feeds_stuff_flag_confirmed hord (by omega))
  rwa [List.append_assoc m, List.singleton_append, ← wire_eq, htail] at h

end Sys2Proof.Proofs
end

section
/-! Proofs for spec/43_stream_decoder.md R162, R163 and R165: encoder frames back to back, the first frame of a fresh stream, and
overflow containment. -/

namespace Sys2Proof.Proofs

open Sys2Proof.Machine
open Sys2Proof.SpecText (Ready fresh afterFrame wire)

/-- Settles O35: each frame leaves the state in which the next comes out whole; from reset the extra FLAG and the first frame's
own one open the first. -/
theorem backToBackFrames : Obligations.BackToBackFrames := by
  intro s d ops hops ws
  have hframe : ∀ w ∈ ws, Feeds s.cfg afterFrame w [w] afterFrame := by
    intro w hw
    obtain ⟨o, ho, rfl⟩ := List.mem_map.1 hw
    obtain ⟨-, hord, hcap⟩ := hops o ho
    exact feeds_wire_afterFrame hord hcap
  refine ⟨fun h => exec_feed_of_feeds h (feeds_flatten_afterFrame hframe), fun h hne => exec_feed_of_feeds h ?_⟩
  cases ops with
  | nil => exact absurd rfl hne
  | cons o ops =>
    obtain ⟨-, hord, hcap⟩ := hops o List.mem_cons_self
    exact (feeds_flag_wire_fresh hord hcap).append
      (feeds_flatten_afterFrame fun w hw => hframe w (List.mem_cons_of_mem _ hw))

/-- Settles O34: no frame is begun before the closing FLAG, whatever the capacity. -/
theorem firstFrameIsLost : Obligations.FirstFrameIsLost := by
  intro s d id t p h _
  refine ⟨(feedLoop s.cfg fresh (wire s.cfg id t p)).dec, (feedLoop s.cfg fresh (wire s.cfg id t p)).overflow, ?_⟩
  rw [exec_feed_ready h, feedLoop_wire_fresh_frames]

/-- Settles O36: the frame lost from reset leaves its escape pairs and its closing FLAG in the buffer, and the second frame is
emitted behind them. -/
theorem lostFrameEscapePairs : Obligations.LostFrameEscapePairs := by
  intro s d id1 id2 t1 t2 p1 p2 e u x h _ _ hraw he hxf hxe hord hcap pairs
  rw [← rawFrame_eq_raw] at hraw
  have hpairs : Machine.stuff (u.filter isReserved) = pairs := stuff_eq_flatMap_stuffOne _
  have hlost := feeds_lost_wire hraw he hxf hxe (by omega)
  have hlen := stuff_filter_length_le isReserved u
  rw [hpairs] at hlost hlen
  have hroom : (pairs ++ [FLAG]).length + (wire s.cfg id2 t2 p2).length ≤ s.cfg.bufCap := by
    rw [wire_length s.cfg id1, hraw, stuff_append, stuff_cons] at hcap
    simp only [List.length_append, List.length_singleton] at hcap ⊢
    omega
  exact exec_feed_of_feeds h (hlost.append_silent (feeds_wire_confirming hord (by simp) hroom))

/-- Settles O38: a dropping overflow leaves the reset state, from which the extra FLAG and the frame are decoded as from the
start. -/
theorem overflowContainment : Obligations.OverflowContainment := by
  intro s t d D chunk fs id ty p hdrop h hfeed hout _ hord hcap
  rw [exec_feed_ready h] at hfeed
  obtain rfl := Host.Outcome.next.inj hfeed
  obtain ⟨-, hovf⟩ := Response.frames.inj (List.singleton_inj.1 (List.append_cancel_left hout))
  rw [feedLoop_dec_of_overflow hdrop hovf]
  have hready := ready_served h fresh (.frames (feedLoop s.cfg D chunk).frames (feedLoop s.cfg D chunk).overflow)
  exact ⟨hready.1, exec_feed_of_feeds hready (feeds_flag_wire_fresh hord hcap)⟩

end Sys2Proof.Proofs
end

section
/-! Proofs for spec/43_stream_decoder.md R161 and spec/90_conflicts.md C2: a stream fed in pieces, and the whole pipeline from the
encoder's operands back to them. -/

namespace Sys2Proof.Proofs

open Sys2Proof.Machine
open Sys2Proof.SpecText (Ready served runAll)

/-- FEEDs of the pieces in turn, when nothing is dropped: together they emit and leave what one FEED of the whole does. -/
theorem runAll_feed_pieces {s : State} {d : Nat} {D : Decoder} {chunks : List Bytes} (h : Ready s d D)
    (hkeeps : KeepsAll s.cfg D chunks.flatten) :
    ∃ (D' : Decoder) (results : List (List Bytes × Bool)),
      results.length = chunks.length ∧
      feedLoop s.cfg D chunks.flatten =
        { dec := D', frames := (results.map Prod.fst).flatten, overflow := results.any Prod.snd } ∧
      runAll (chunks.map (Instr.feed d)) s =
        .next { s with decoders := s.decoders.set d D', outbox := s.outbox ++ results.map (fun r => .frames r.1 r.2) } := by
  induction chunks generalizing s D with
  | nil =>
    refine ⟨D, [], rfl, rfl, ?_⟩
    have hself : s.decoders.set d D = s.decoders := congrArg State.decoders (setDecoder_self h.1)
    simp [runAll, hself]
  | cons c chunks ih =>
    rw [List.flatten_cons] at hkeeps ⊢
    obtain ⟨hc, hrest⟩ := hkeeps.of_append
    have hfeed := exec_feed_ready h c
    obtain ⟨D', results, hlen, hloop, hrun⟩ := ih (ready_served h _ _) hrest
    refine ⟨D', ((feedLoop s.cfg D c).frames, (feedLoop s.cfg D c).overflow) :: results, by simp [hlen], ?_, ?_⟩
    · rw [feedLoop_append hc]
      simp only [served] at hloop
      simp [hloop]
    · rw [List.map_cons, runAll_cons_of_next hfeed, hrun]
      simp [served]

/-- Settles O33: the loop goes on from piece to piece as within one chunk. -/
theorem streamingEquivalence : Obligations.StreamingEquivalence := by
  intro s d D chunks h hkeeps
  rw [specText_feed_eq] at hkeeps
  obtain ⟨D', results, hlen, hloop, hrun⟩ := runAll_feed_pieces h hkeeps
  exact ⟨D', results, hlen, by rw [exec_feed_ready h, hloop], hrun⟩

/-- A stream that overflows nowhere, fed in pieces: no piece overflows. -/
theorem runAll_feed_of_feeds {s : State} {d : Nat} {D D' : Decoder} {chunks fs : List Bytes} (h : Ready s d D)
    (hfeeds : Feeds s.cfg D chunks.flatten fs D') :
    ∃ results : List (List Bytes), results.flatten = fs ∧
      runAll (chunks.map (Instr.feed d)) s =
        .next { s with decoders := s.decoders.set d D', outbox := s.outbox ++ results.map (fun fs => .frames fs false) } := by
  obtain ⟨D'', results, -, hloop, hrun⟩ := runAll_feed_pieces h (.inr (by rw [hfeeds]))
  obtain ⟨rfl, rfl, hany⟩ := FeedResult.mk.inj (hloop.symm.trans hfeeds)
  have hflag : ∀ r ∈ results, r.2 = false := by simpa using hany
  refine ⟨results.map Prod.fst, rfl, ?_⟩
  have hsame : results.map (fun r => Response.frames r.1 r.2) = (results.map Prod.fst).map (fun fs => .frames fs false) := by
    rw [List.map_map]
    exact List.map_congr_left fun r hr => by rw [hflag r hr]; rfl
  rw [hrun, hsame]

/-- Settles O43: the encoder's frame, whole or in pieces, is emitted once, and the validator and the header boundary undo the
encoder. -/
theorem endToEnd : Obligations.EndToEnd := by
  intro s d id t p chunks h hencodable hord hcap hchunks
  obtain ⟨hid, hlen⟩ := hencodable
  have hfeeds := feeds_flag_wire_fresh hord hcap
  rw [FLAG, ← hchunks] at hfeeds
  obtain ⟨results, hframes, hrun⟩ := runAll_feed_of_feeds h hfeeds
  exact ⟨exec_encode_wire hid hlen t, ⟨_, results, hrun, rfl, hframes, rfl⟩, exec_validate_wire s.cfg id t p s,
    exec_parseHeader_cons ..⟩

end Sys2Proof.Proofs
end

section
/-! What an instruction can do to the state (spec/20_memory.md sections 3 and 4): the pure ones return a result that the parameters
fix, and the others act on the instance they name. -/

namespace Sys2Proof.Proofs

open Sys2Proof.Machine
open Sys2Proof.SpecText (Ready served returned instanceOf fresh)

/-! ### Pure instructions -/

/-- A pure instruction returns a result that its operands and the parameters fix. -/
theorem exec_pure {i : Instr} (h : instanceOf i = none) (cfg : Config) :
    ∃ r : Response, ∀ s : State, s.cfg = cfg → exec i s = .next (s.respond r) := by
  cases i with
  | encode id t p =>
    rcases Nat.lt_or_ge 63 id with hid | hid
    · exact ⟨_, fun s _ => exec_encode_invalidAddress hid t p s⟩
    rcases Nat.lt_or_ge cfg.maxRawFrame (4 + p.length + 2) with hlen | hlen
    · exact ⟨_, fun s hs => exec_encode_frameTooLarge hid (hs ▸ hlen) t⟩
    · exact ⟨.bytes (SpecText.wire cfg id t p), fun s hs => by subst hs; exact exec_encode_wire hid hlen t⟩
  | validate frame =>
    by_cases hbad : (destuff (stripFlags frame)).2 = true ∨ frameCheck (destuff (stripFlags frame)).1 = false
    · exact ⟨_, fun s _ => exec_validate_badFcs hbad s⟩
    · obtain ⟨hok, hcheck⟩ := not_or.1 hbad
      exact ⟨_, fun s _ => exec_validate_ok (by simpa using hok) (by simpa using hcheck) s⟩
  | parseHeader body =>
    rcases Nat.lt_or_ge body.length 4 with hshort | hlong
    · exact ⟨_, fun s _ => exec_parseHeader_short hshort s⟩
    · obtain ⟨a, c, j, t, payload, rfl⟩ := eq_header_cons_of_length hlong
      exact ⟨_, fun s _ => exec_parseHeader_cons a c j t payload s⟩
  | crcStep | fcs | stuff | destuff | txFlag | txEsc | txOther | dsFlag | dsEsc | dsLone | dsTail | dsOther =>
    exact ⟨_, fun _ _ => rfl⟩
  | decReset | feed | rxOvf | rxEsc | rxEscd | rxIdleF | rxIdleO | rxCfmgF0 | rxCfmgF1 | rxCfmgO | rxCfmdF | rxCfmdO
  | rxPayF | rxPayO => cases h

/-! ### Instructions that name an instance -/

/-- What an instruction does on the instance it names, given the parameters: a new instance state and a result, or a refusal. -/
abbrev InstanceAction := Config → Decoder → Except Refusal (Decoder × Response)

/-- `act` carried out on instance `d`. -/
def onInstance (act : InstanceAction) (d : Nat) (s : State) : Answer :=
  withDecoder s d fun D =>
    match act s.cfg D with
    | .ok (D', r) => complete (s.setDecoder d D') r
    | .error e => .refused e

/-- DEC_RESET's action. -/
def resetAction : InstanceAction := fun _ _ => .ok (Decoder.reset, .done)

/-- FEED's action. -/
def feedAction (chunk : Bytes) : InstanceAction := fun cfg D =>
  .ok ((feedLoop cfg D chunk).dec, .frames (feedLoop cfg D chunk).frames (feedLoop cfg D chunk).overflow)

/-- The action of a row alone. -/
def rowAction (row : RxRow) (b : Byte) : InstanceAction := fun cfg D =>
  if rxRowOf cfg D b = row then
    .ok ((rxStep cfg D b).dec, .frames (rxStep cfg D b).frames (rxStep cfg D b).overflow)
  else .error (.rowNotSelected row)

theorem runRxRow_eq_onInstance (row : RxRow) (d : Nat) (b : Byte) (s : State) :
    runRxRow row d b s = onInstance (rowAction row b) d s := by
  unfold runRxRow onInstance
  congr
  funext D
  by_cases h : rxRowOf s.cfg D b = row
  · simp [rowAction, h, rxStep]
  · simp [rowAction, h]

/-- Every instruction that names an instance acts on it as DEC_RESET, as FEED or as a row. -/
theorem exec_eq_onInstance {i : Instr} {d : Nat} (h : instanceOf i = some d) :
    ∃ act : InstanceAction, (act = resetAction ∨ (∃ chunk, act = feedAction chunk) ∨ ∃ row b, act = rowAction row b) ∧
      ∀ s, exec i s = onInstance act d s := by
  cases i with
  | decReset =>
    cases h
    exact ⟨_, .inl rfl, fun _ => rfl⟩
  | feed d chunk =>
    cases h
    exact ⟨_, .inr (.inl ⟨chunk, rfl⟩), fun _ => rfl⟩
  | rxOvf | rxEsc | rxEscd | rxIdleF | rxIdleO | rxCfmgF0 | rxCfmgF1 | rxCfmgO | rxCfmdF | rxCfmdO | rxPayF | rxPayO =>
    cases h
    exact ⟨_, .inr (.inr ⟨_, _, rfl⟩), runRxRow_eq_onInstance _ _ _⟩
  | encode | validate | parseHeader | crcStep | fcs | stuff | destuff | txFlag | txEsc | txOther | dsFlag | dsEsc | dsLone
  | dsTail | dsOther => cases h

theorem ready_iff (s : State) (d : Nat) (D : Decoder) : Ready s d D ↔ s.decoders[d]? = some D ∧ s.isOpen d = false :=
  and_congr_right fun _ => (isOpen_eq_false_iff s d).symm

theorem onInstance_ready {act : InstanceAction} {s : State} {d : Nat} {D D' : Decoder} {r : Response} (h : Ready s d D)
    (hact : act s.cfg D = .ok (D', r)) : onInstance act d s = .next (served s d D' r) := by
  rw [onInstance, withDecoder_ready _ h.1 (isOpen_of_ready h), hact]
  rfl

/-- If an action completes, its instance was ready, and is served what the action says. -/
theorem onInstance_next {act : InstanceAction} {s t : State} {d : Nat} (h : onInstance act d s = .next t) :
    ∃ (D D' : Decoder) (r : Response), Ready s d D ∧ act s.cfg D = .ok (D', r) ∧ t = served s d D' r := by
  obtain ⟨D, hD, ho, hk⟩ := withDecoder_next h
  have hready := (ready_iff s d D).2 ⟨hD, ho⟩
  cases hact : act s.cfg D with
  | error e =>
    rw [hact] at hk
    cases hk
  | ok answer =>
    obtain ⟨D', r⟩ := answer
    rw [onInstance_ready hready hact] at h
    exact ⟨D, D', r, hready, hact, (Host.Outcome.next.inj h).symm⟩

/-- If an action faults, a FEED on its instance is open (R208). -/
theorem onInstance_fault {act : InstanceAction} {s : State} {d : Nat} {f : Fault} (h : onInstance act d s = .fault f) :
    f = .reentrantFeed d ∧ s.isOpen d = true := by
  rcases withDecoder_cases s d _ with ⟨-, hk⟩ | ⟨D, -, ho, hk⟩ | ⟨D, -, -, hk⟩
  · rw [onInstance, hk] at h
    cases h
  · rw [onInstance, hk] at h
    exact ⟨(Host.Outcome.fault.inj h).symm, ho⟩
  · rw [onInstance, hk] at h
    cases hact : act s.cfg D <;> rw [hact] at h <;> cases h

/-! ### What a completed instruction depends on and changes -/

/-- `s` with result `r` returned and, if an instance is named, its state set to `D`. -/
def answered (target : Option Nat) (D : Decoder) (r : Response) (s : State) : State :=
  match target with
  | none => returned s r
  | some d => served s d D r

/-- For the instruction `i` the two states look the same: the parameters, the open FEEDs, and the instance it names. -/
def LooksSame (i : Instr) (s s' : State) : Prop :=
  s'.cfg = s.cfg ∧ s'.inFlight = s.inFlight ∧ ∀ d, instanceOf i = some d → s'.decoders[d]? = s.decoders[d]?

theorem looksSame_refl (i : Instr) (s : State) : LooksSame i s s := ⟨rfl, rfl, fun _ _ => rfl⟩

/-- An instruction that completes does the same in every state that looks the same to it. -/
theorem exec_next_local {i : Instr} {s t : State} (h : exec i s = .next t) :
    ∃ (D : Decoder) (r : Response), ∀ s', LooksSame i s s' → exec i s' = .next (answered (instanceOf i) D r s') := by
  cases hi : instanceOf i with
  | none =>
    obtain ⟨r, hr⟩ := exec_pure hi s.cfg
    exact ⟨Decoder.reset, r, fun s' hsame => hr s' hsame.1⟩
  | some d =>
    obtain ⟨act, -, hexec⟩ := exec_eq_onInstance hi
    rw [hexec] at h
    obtain ⟨D, D', r, ⟨hD, hopen⟩, hact, -⟩ := onInstance_next h
    refine ⟨D', r, fun s' ⟨hcfg, hflight, htarget⟩ => ?_⟩
    have hready : Ready s' d D := ⟨by rw [htarget d hi, hD], by rw [hflight]; exact hopen⟩
    rw [hexec, onInstance_ready hready (by rw [hcfg]; exact hact)]
    rfl

/-- Everything an instruction that completes changes. -/
theorem exec_next_answered {i : Instr} {s t : State} (h : exec i s = .next t) :
    ∃ (D : Decoder) (r : Response), t = answered (instanceOf i) D r s := by
  obtain ⟨D, r, hlocal⟩ := exec_next_local h
  exact ⟨D, r, Host.Outcome.next.inj (h.symm.trans (hlocal s (looksSame_refl i s)))⟩

section
variable (target : Option Nat) (D : Decoder) (r : Response) (s : State)

@[simp] theorem answered_cfg : (answered target D r s).cfg = s.cfg := by cases target <;> rfl
@[simp] theorem answered_inFlight : (answered target D r s).inFlight = s.inFlight := by cases target <;> rfl
@[simp] theorem answered_outbox : (answered target D r s).outbox = s.outbox ++ [r] := by cases target <;> rfl
@[simp] theorem answered_decoders_length : (answered target D r s).decoders.length = s.decoders.length := by
  cases target with
  | none => rfl
  | some d => exact List.length_set

/-- An instance that is not the one named keeps its state. -/
theorem answered_decoders_ne {e : Nat} (h : target ≠ some e) : (answered target D r s).decoders[e]? = s.decoders[e]? := by
  cases target with
  | none => rfl
  | some d => exact served_decoders_ne (fun hed => h (by rw [hed])) s D r

end

end Sys2Proof.Proofs
end

section
/-! Proofs for spec/20_memory.md sections 3 and 4 and spec/60_exceptions.md section 3: what instructions leave alone, which commute,
and which fault. -/

namespace Sys2Proof.Proofs

open Sys2Proof.Machine
open Sys2Proof.SpecText (Ready served instanceOf runAll)

/-- Settles O49: a pure instruction's result is fixed by the parameters. -/
theorem pureOperations : Obligations.PureOperations := fun cfg _ h => exec_pure h cfg

/-- Settles O50: an instruction that completes serves the instance it names, and no other. -/
theorem instanceFrame : Obligations.InstanceFrame := by
  intro s t i d hi h
  obtain ⟨D', r, ht⟩ := exec_next_answered h
  rw [hi] at ht
  subst ht
  have hothers : ∀ e, e ≠ d → (served s d D' r).decoders[e]? = s.decoders[e]? := fun e hne => served_decoders_ne hne s D' r
  refine ⟨D', r, rfl, hothers, fun e D E hne hD hE a => ?_⟩
  rw [← hothers e hne] at hD
  rw [Option.some.inj (hD.symm.trans hE)]

/-- Two instructions of which one is pure, or that name different instances, leave the instances the same in either order. -/
theorem answered_decoders_comm {o o' : Option Nat} (h : o = none ∨ o ≠ o') (D D' : Decoder) (r r' : Response) (s : State) :
    (answered o' D' r' (answered o D r s)).decoders = (answered o D r (answered o' D' r' s)).decoders := by
  cases o with
  | none => cases o' <;> rfl
  | some d =>
    cases o' with
    | none => rfl
    | some e =>
      have hne : d ≠ e := fun hde => (h.resolve_left (by simp)) (by rw [hde])
      exact List.set_comm _ _ hne

/-- Settles O51: each of the two instructions looks at nothing that the other changes. -/
theorem operationsCommute : Obligations.OperationsCommute := by
  intro s t u i j hij hi hj
  obtain ⟨Di, ri, hlocali⟩ := exec_next_local hi
  obtain ⟨Dj, rj, hlocalj⟩ := exec_next_local hj
  obtain rfl := Host.Outcome.next.inj (hi.symm.trans (hlocali s (looksSame_refl i s)))
  obtain rfl := Host.Outcome.next.inj (hj.symm.trans (hlocalj s (looksSame_refl j s)))
  have hv := hlocalj (answered (instanceOf i) Di ri s) ⟨answered_cfg .., answered_inFlight .., fun e he =>
    answered_decoders_ne _ _ _ _ fun hie => by simp [hie, he] at hij⟩
  have hw := hlocali (answered (instanceOf j) Dj rj s) ⟨answered_cfg .., answered_inFlight .., fun e he =>
    answered_decoders_ne _ _ _ _ fun hje => by simp [hje, he] at hij⟩
  exact ⟨_, _, ri, rj, hv, hw, answered_decoders_comm hij _ _ _ _ _, by simp, by simp, answered_outbox .., answered_outbox ..⟩

/-- Settles O54: a pure instruction never faults, and an action on an instance only where a FEED on it is open. -/
theorem faultsOnlyWhenReentrant : Obligations.FaultsOnlyWhenReentrant := by
  intro s i f h
  cases hi : instanceOf i with
  | none =>
    obtain ⟨r, hr⟩ := exec_pure hi s.cfg
    rw [hr s rfl] at h
    cases h
  | some d =>
    obtain ⟨act, -, hexec⟩ := exec_eq_onInstance hi
    rw [hexec] at h
    obtain ⟨hf, ho⟩ := onInstance_fault h
    exact ⟨d, hf, rfl, (isOpen_iff s d).1 ho⟩

/-! ### FEEDs that overlap other calls -/

/-- `s` with a FEED on instance `d` open that holds result `r`. -/
def withOpenFeed (s : State) (d : Nat) (r : Response) : State :=
  { s with inFlight := s.inFlight ++ [{ d := d, response := r }] }

theorem openFeed_ready {s : State} {d : Nat} {D : Decoder} (h : Ready s d D) (chunk : Bytes) :
    openFeed d chunk s = .next (withOpenFeed (s.setDecoder d (feedLoop s.cfg D chunk).dec) d
      (.frames (feedLoop s.cfg D chunk).frames (feedLoop s.cfg D chunk).overflow)) :=
  withDecoder_ready _ h.1 (isOpen_of_ready h)

theorem withOpenFeed_isOpen (s : State) (d e : Nat) (r : Response) :
    (withOpenFeed s d r).isOpen e = (s.isOpen e || decide (d = e)) := by
  simp [withOpenFeed, State.isOpen]

/-- Completing the one open FEED on an instance returns its result and leaves the other open FEEDs. -/
theorem completeFeed_withOpenFeed {s : State} {d : Nat} (h : ∀ o ∈ s.inFlight, o.d ≠ d) (r : Response) :
    completeFeed d (withOpenFeed s d r) = .next (s.respond r) := by
  have hnone : s.inFlight.find? (fun o => decide (o.d = d)) = none := by simpa using h
  have hkeep : s.inFlight.filter (fun o => decide (o.d ≠ d)) = s.inFlight := List.filter_eq_self.2 (by simpa using h)
  simp only [completeFeed, withOpenFeed, List.find?_append, hnone, List.filter_append, hkeep]
  simp [complete_eq, State.respond]

theorem exec_decReset_open {s : State} {d : Nat} {D : Decoder} (hD : s.decoders[d]? = some D) (ho : s.isOpen d = true) :
    exec (.decReset d) s = .fault (.reentrantFeed d) := withDecoder_open _ hD ho

/-- Settles O53: an open FEED is what makes the two operations fault; no instruction opens one, and completing it returns what FEED
would have. -/
theorem reentrantFeedFaults : Obligations.ReentrantFeedFaults := by
  refine ⟨?fault, ?neverOpens, ?twoChunks, ?opened⟩
  case fault =>
    intro s d D hD hopen
    have ho := (isOpen_iff s d).2 hopen
    exact ⟨exec_decReset_open hD ho, exec_feed_open hD ho⟩
  case neverOpens =>
    intro s t i h
    obtain ⟨D, r, rfl⟩ := exec_next_answered h
    exact answered_inFlight ..
  case twoChunks =>
    intro s d D chunk chunk' h
    exact ⟨_, by rw [runAll_cons_of_next (exec_feed_ready h chunk),
      runAll_cons_of_next (exec_feed_ready (ready_served h _ _) chunk'), runAll]⟩
  case opened =>
    intro s d D chunk h
    obtain ⟨hD, hclosed⟩ := ready_setDecoder h (feedLoop s.cfg D chunk).dec
    have ho (r : Response) : (withOpenFeed (s.setDecoder d (feedLoop s.cfg D chunk).dec) d r).isOpen d = true := by
      simp [withOpenFeed_isOpen]
    refine ⟨_, openFeed_ready h chunk, rfl, exec_feed_open (D := (feedLoop s.cfg D chunk).dec) hD (ho _),
      exec_decReset_open (D := (feedLoop s.cfg D chunk).dec) hD (ho _), fun e hne => ?_, ?_⟩
    · simp [withOpenFeed_isOpen, hne.symm]
    · rw [completeFeed_withOpenFeed hclosed, exec_feed_ready h, respond_setDecoder_eq_served]

end Sys2Proof.Proofs
end

section
/-! The invariants of spec/10_state.md R22 for one instance: the reset state meets them, and every byte and FEED keeps them. -/

namespace Sys2Proof.Proofs

open Sys2Proof.Machine
open Sys2Proof.SpecText (fresh)

/-- R22's invariants and R164's on the first byte, as propositions. -/
theorem decoder_wf_iff (cfg : Config) (D : Decoder) :
    D.wf cfg = true ↔ D.buf.length ≤ cfg.bufCap ∧ (D.esc = true ↔ D.buf.getLast? = some ESCAPE) ∧
      D.minLength ≤ D.buf.length ∧ ∀ b, D.buf.head? = some b → b = FLAG ∨ b = ESCAPE := by
  have hesc : D.escMatches = true ↔ (D.esc = true ↔ D.buf.getLast? = some ESCAPE) := by
    unfold Decoder.escMatches
    cases D.esc <;> simp
  have hhead : D.headOk = true ↔ ∀ b, D.buf.head? = some b → b = FLAG ∨ b = ESCAPE := by
    unfold Decoder.headOk
    cases D.buf <;> simp
  simp only [Decoder.wf, Decoder.fits, Memory.wf, Bool.and_eq_true, decide_eq_true_eq, hesc, hhead, and_assoc]
  rfl

/-- The emptied buffer, in a state that asks for no bytes. -/
theorem decoder_wf_empty (cfg : Config) {st : DecState} (hst : st = .idle ∨ st = .confirming) :
    Decoder.wf cfg ⟨st, [], false⟩ = true := by
  rw [decoder_wf_iff]
  rcases hst with rfl | rfl <;> simp [Decoder.minLength]

theorem decoder_wf_fresh (cfg : Config) : fresh.wf cfg = true := decoder_wf_empty cfg (.inl rfl)

/-- A stored byte keeps the invariants if the escape flag says whether it is ESCAPE, the new state asks for no more bytes than
there are, and it is a reserved byte where it is the first. -/
theorem decoder_wf_stored {cfg : Config} {D : Decoder} {st : DecState} {esc : Bool} {b : Byte} (hD : D.wf cfg = true)
    (hroom : D.buf.length < cfg.bufCap) (hesc : esc = true ↔ b = ESCAPE)
    (hmin : (⟨st, D.buf ++ [b], esc⟩ : Decoder).minLength ≤ D.buf.length + 1) (hfirst : D.buf = [] → b = FLAG ∨ b = ESCAPE) :
    Decoder.wf cfg ⟨st, D.buf ++ [b], esc⟩ = true := by
  obtain ⟨-, -, -, hhead⟩ := (decoder_wf_iff cfg D).1 hD
  rw [decoder_wf_iff]
  refine ⟨by simpa using hroom, by simpa using hesc, by simpa using hmin, ?_⟩
  cases hbuf : D.buf with
  | nil => simpa using hfirst hbuf
  | cons a m => simpa [hbuf] using hhead

/-- A byte that meets a buffer with room keeps the invariants. -/
theorem rxByte_wf {cfg : Config} {D : Decoder} (hD : D.wf cfg = true) (hroom : D.buf.length < cfg.bufCap) (b : Byte) :
    (rxByte D b).1.wf cfg = true := by
  obtain ⟨hfits, hesc, hmin, hhead⟩ := (decoder_wf_iff cfg D).1 hD
  have hnotEmpty : 0 < D.buf.length → D.buf = [] → b = FLAG ∨ b = ESCAPE := fun hpos hnil => by simp [hnil] at hpos
  rcases rxByte_cases D b with ⟨hb, h⟩ | ⟨hb, hpending, h⟩ | ⟨hb, hready, hrow⟩
  · rw [h]
    exact decoder_wf_stored hD hroom (by simp [hb]) (Nat.le_succ_of_le hmin) fun _ => .inr hb
  · rw [h]
    exact decoder_wf_stored hD hroom (by simp [hb]) (Nat.le_succ_of_le hmin) fun hnil => by simp [hnil, hpending] at hesc
  · have hescape : D.esc = true ↔ b = ESCAPE := by simp [hb, hready]
    rcases hrow with ⟨hst, hf, h⟩ | ⟨hst, hf, h⟩ | ⟨hst, hf, hbuf, h⟩ | ⟨hst, hf, hbuf, h⟩ | ⟨hst, hf, h⟩ | ⟨hst, hf, h⟩ |
      ⟨hst, hf, h⟩ | ⟨hst, hf, h⟩ | ⟨hst, hf, h⟩ <;> rw [h] <;> rw [Decoder.minLength, hst] at hmin
    · exact decoder_wf_stored hD hroom hescape (Nat.zero_le _) fun _ => .inl hf
    · exact hD
    · exact decoder_wf_stored hD hroom hescape (Nat.le_add_left ..) fun _ => .inl hf
    · rw [decoder_wf_iff]
      exact ⟨hfits, hesc, List.length_pos_iff.2 hbuf, hhead⟩
    · rw [hready]
      exact decoder_wf_empty cfg (.inl rfl)
    · exact decoder_wf_stored hD hroom hescape (by rw [Decoder.minLength, hst]; omega) fun _ => .inl hf
    · exact decoder_wf_stored hD hroom hescape (Nat.succ_le_succ hmin) (hnotEmpty hmin)
    · rw [hready]
      exact decoder_wf_empty cfg (.inr rfl)
    · exact decoder_wf_stored hD hroom hescape (by rw [Decoder.minLength, hst]; omega)
        (hnotEmpty (Nat.lt_of_lt_of_le Nat.two_pos hmin))

/-- The state and the frames of one step of the loop: those of a byte that meets a buffer with room, or of a byte in the reset
state, or the reset state with no frame. -/
theorem rxStep_cases (cfg : Config) (D : Decoder) (b : Byte) :
    (D.buf.length < cfg.bufCap ∧ (rxStep cfg D b).dec = (rxByte D b).1 ∧ (rxStep cfg D b).frames = (rxByte D b).2) ∨
    (cfg.bufCap ≤ D.buf.length ∧ (rxStep cfg D b).dec = (rxByte fresh b).1 ∧ (rxStep cfg D b).frames = []) ∨
    (cfg.bufCap ≤ D.buf.length ∧ (rxStep cfg D b).dec = fresh ∧ (rxStep cfg D b).frames = []) := by
  rcases Nat.lt_or_ge D.buf.length cfg.bufCap with hroom | hfull
  · rw [rxStep_notFull hroom]
    exact .inl ⟨hroom, rfl, rfl⟩
  · cases hdrop : cfg.overflowDropsRestOfChunk with
    | true =>
      rw [rxStep_full_drop hfull hdrop]
      exact .inr (.inr ⟨hfull, rfl, rfl⟩)
    | false =>
      rw [rxStep_full_resume hfull hdrop]
      exact .inr (.inl ⟨hfull, rfl, rxByte_fresh_frames b⟩)

/-- One step of the loop keeps the invariants, whether the buffer has room or not (R9 gives it room for one byte). -/
theorem rxStep_wf {cfg : Config} {D : Decoder} (hcap : 1 ≤ cfg.bufCap) (hD : D.wf cfg = true) (b : Byte) :
    (rxStep cfg D b).dec.wf cfg = true := by
  rcases rxStep_cases cfg D b with ⟨hroom, hdec, -⟩ | ⟨-, hdec, -⟩ | ⟨-, hdec, -⟩ <;> rw [hdec]
  · exact rxByte_wf hD hroom b
  · exact rxByte_wf (decoder_wf_fresh cfg) hcap b
  · exact decoder_wf_fresh cfg

/-- A FEED keeps the invariants. -/
theorem feedLoop_wf {cfg : Config} {D : Decoder} (hcap : 1 ≤ cfg.bufCap) (hD : D.wf cfg = true) (chunk : Bytes) :
    (feedLoop cfg D chunk).dec.wf cfg = true := by
  induction chunk generalizing D with
  | nil => exact hD
  | cons b rest ih =>
    have hstep := rxStep_wf hcap hD b
    cases hstop : (rxStep cfg D b).stop with
    | true => rw [feedLoop_stop hstop]; exact hstep
    | false => rw [feedLoop_go hstop]; exact ih hstep

end Sys2Proof.Proofs
end

section
/-! The invariant of the whole state (spec/10_state.md R20, R22): what a step can do, and that it keeps the invariant and the
parameters. -/

namespace Sys2Proof.Proofs

open Sys2Proof.Machine
open Sys2Proof.SpecText (Ready instanceOf)

/-- The open FEEDs name instances, each at most once, as propositions. -/
theorem inFlightWf_iff (s : State) :
    s.inFlightWf = true ↔ (∀ o ∈ s.inFlight, o.d < s.cfg.nDecoders) ∧ (s.inFlight.map OpenFeed.d).Nodup := by
  simp [State.inFlightWf]

theorem state_wf_iff (s : State) :
    s.wf = true ↔ s.cfg.wf = true ∧ s.decoders.length = s.cfg.nDecoders ∧ (∀ D ∈ s.decoders, D.wf s.cfg = true) ∧
      s.inFlightWf = true := by
  simp [State.wf, and_assoc]

theorem bufCap_pos_of_wf {s : State} (h : s.wf = true) : 1 ≤ s.cfg.bufCap := by
  obtain ⟨hcfg, -⟩ := (state_wf_iff s).1 h
  simp only [Config.wf, Bool.and_eq_true, decide_eq_true_eq] at hcfg
  exact hcfg.1

theorem decoder_wf_of_ready {s : State} {d : Nat} {D : Decoder} (h : s.wf = true) (hready : Ready s d D) :
    D.wf s.cfg = true := by
  obtain ⟨-, -, hdecoders, -⟩ := (state_wf_iff s).1 h
  exact hdecoders D (List.mem_of_getElem? hready.1)

/-- A well-formed state given a well-formed instance state is well formed. -/
theorem setDecoder_wf {s : State} {D : Decoder} (h : s.wf = true) (hD : D.wf s.cfg = true) (d : Nat) :
    (s.setDecoder d D).wf = true := by
  obtain ⟨hcfg, hlen, hdecoders, hflight⟩ := (state_wf_iff s).1 h
  rw [state_wf_iff]
  refine ⟨hcfg, List.length_set.trans hlen, fun E hE => ?_, hflight⟩
  rcases List.mem_or_eq_of_mem_set hE with hE | rfl
  · exact hdecoders E hE
  · exact hD

/-- An instruction that completes keeps the invariant. -/
theorem exec_wf {i : Instr} {s t : State} (h : s.wf = true) (hexec : exec i s = .next t) : t.wf = true := by
  cases hi : instanceOf i with
  | none =>
    obtain ⟨r, hr⟩ := exec_pure hi s.cfg
    obtain rfl := Host.Outcome.next.inj ((hr s rfl).symm.trans hexec)
    exact h
  | some d =>
    obtain ⟨act, hkind, hact⟩ := exec_eq_onInstance hi
    rw [hact] at hexec
    obtain ⟨D, D', r, hready, hdone, rfl⟩ := onInstance_next hexec
    have hD := decoder_wf_of_ready h hready
    refine setDecoder_wf (D := D') h ?_ d
    rcases hkind with rfl | ⟨chunk, rfl⟩ | ⟨row, b, rfl⟩
    · cases hdone
      exact decoder_wf_fresh s.cfg
    · cases hdone
      exact feedLoop_wf (bufCap_pos_of_wf h) hD chunk
    · simp only [rowAction] at hdone
      split at hdone
      · cases hdone
        exact rxStep_wf (bufCap_pos_of_wf h) hD b
      · cases hdone

/-! ### Opening and completing a FEED -/

theorem openFeed_next {d : Nat} {chunk : Bytes} {s t : State} (h : openFeed d chunk s = .next t) :
    ∃ (D : Decoder) (r : Response), Ready s d D ∧ t = withOpenFeed (s.setDecoder d (feedLoop s.cfg D chunk).dec) d r := by
  obtain ⟨D, hD, ho, -⟩ := withDecoder_next h
  have hready := (ready_iff s d D).2 ⟨hD, ho⟩
  rw [openFeed_ready hready] at h
  exact ⟨D, _, hready, (Host.Outcome.next.inj h).symm⟩

theorem completeFeed_next {d : Nat} {s t : State} (h : completeFeed d s = .next t) :
    ∃ r : Response, t = State.respond { s with inFlight := s.inFlight.filter fun o => decide (o.d ≠ d) } r := by
  unfold completeFeed at h
  split at h
  · cases h
  · next o _ => exact ⟨o.response, (Host.Outcome.next.inj h).symm⟩

theorem openFeed_wf {d : Nat} {chunk : Bytes} {s t : State} (h : s.wf = true) (hopen : openFeed d chunk s = .next t) :
    t.wf = true := by
  obtain ⟨D, r, hready, rfl⟩ := openFeed_next hopen
  have hset := setDecoder_wf h (feedLoop_wf (bufCap_pos_of_wf h) (decoder_wf_of_ready h hready) chunk) d
  obtain ⟨hcfg, hlen, hdecoders, hflight⟩ := (state_wf_iff _).1 hset
  obtain ⟨hnames, honce⟩ := (inFlightWf_iff s).1 hflight
  have hd : d < s.cfg.nDecoders := by
    rw [← decoders_length_of_wf h]
    exact (List.getElem?_eq_some_iff.1 hready.1).1
  refine (state_wf_iff _).2 ⟨hcfg, hlen, hdecoders, (inFlightWf_iff _).2 ⟨fun o ho => ?_, ?_⟩⟩
  · rcases List.mem_append.1 ho with ho | ho
    · exact hnames o ho
    · rw [List.mem_singleton.1 ho]
      exact hd
  · have hnew : d ∉ s.inFlight.map OpenFeed.d := fun hmem => by
      obtain ⟨o, ho, hod⟩ := List.mem_map.1 hmem
      exact hready.2 o ho hod
    have hlast := List.Nodup.concat hnew honce
    simpa [withOpenFeed] using hlast

theorem completeFeed_wf {d : Nat} {s t : State} (h : s.wf = true) (hcomplete : completeFeed d s = .next t) : t.wf = true := by
  obtain ⟨r, rfl⟩ := completeFeed_next hcomplete
  obtain ⟨hcfg, hlen, hdecoders, hflight⟩ := (state_wf_iff s).1 h
  obtain ⟨hnames, honce⟩ := (inFlightWf_iff s).1 hflight
  refine (state_wf_iff _).2 ⟨hcfg, hlen, hdecoders, (inFlightWf_iff _).2 ⟨fun o ho => ?_, ?_⟩⟩
  · exact hnames o (List.mem_of_mem_filter ho)
  · exact honce.sublist (List.filter_sublist.map _)

/-! ### Steps -/

/-- Everything a step that answers a next state can be: the block waits, or it takes the oldest request and runs an instruction,
opens a FEED or completes one. -/
theorem step_next {s t : State} (h : step s = .next t) :
    t = s ∨ ∃ rest : List Request,
      (∃ i, exec i { s with inbox := rest } = .next t) ∨ (∃ d chunk, openFeed d chunk { s with inbox := rest } = .next t) ∨
      ∃ d, completeFeed d { s with inbox := rest } = .next t := by
  unfold step at h
  split at h
  · exact .inl (Host.Outcome.next.inj h).symm
  · next f rest _ =>
    split at h
    · next i _ => exact .inr ⟨rest, .inl ⟨i, h⟩⟩
    · cases h
  · next d chunk rest _ => exact .inr ⟨rest, .inr (.inl ⟨d, chunk, h⟩)⟩
  · next d rest _ => exact .inr ⟨rest, .inr (.inr ⟨d, h⟩)⟩

end Sys2Proof.Proofs
end

section
/-! Proofs for spec/10_state.md R22 and R23: the invariants and the parameters, at the start of a run and over a step. -/

namespace Sys2Proof.Proofs

open Sys2Proof.Machine
open Sys2Proof.SpecText (instanceOf)

/-- Settles O46: R8's defaults meet R9, and every instance is in its reset state. -/
theorem resetIsWellFormed : Obligations.ResetIsWellFormed := by
  refine (state_wf_iff _).2 ⟨?_, reset_decoders_length, fun D hD => ?_, by decide⟩
  · simp [State.reset, Config.hardware, Config.wf]
  · rw [List.eq_of_mem_replicate hD]
    exact decoder_wf_fresh _

/-- Settles O47: an instruction, the opening of a FEED and its completion each keep the invariant, and the pending requests have no
part in it. -/
theorem stepKeepsWellFormed : Obligations.StepKeepsWellFormed := by
  intro s t h hstep
  rcases step_next hstep with rfl | ⟨rest, ⟨i, hexec⟩ | ⟨d, chunk, hopen⟩ | ⟨d, hcomplete⟩⟩
  · exact h
  · exact exec_wf (s := { s with inbox := rest }) h hexec
  · exact openFeed_wf (s := { s with inbox := rest }) h hopen
  · exact completeFeed_wf (s := { s with inbox := rest }) h hcomplete

/-- Settles O48: of the state, an instruction changes at most one instance and the results, and a FEED that opens or completes the
open FEEDs besides. -/
theorem stepKeepsParameters : Obligations.StepKeepsParameters := by
  intro s t hstep
  rcases step_next hstep with rfl | ⟨rest, ⟨i, hexec⟩ | ⟨d, chunk, hopen⟩ | ⟨d, hcomplete⟩⟩
  · exact ⟨rfl, rfl⟩
  · obtain ⟨D, r, rfl⟩ := exec_next_answered hexec
    exact ⟨answered_cfg .., answered_decoders_length ..⟩
  · obtain ⟨D, r, -, rfl⟩ := openFeed_next hopen
    exact ⟨rfl, List.length_set⟩
  · obtain ⟨r, rfl⟩ := completeFeed_next hcomplete
    exact ⟨rfl, rfl⟩

end Sys2Proof.Proofs
end

section
/-! The frames a FEED emits (spec/43_stream_decoder.md R164): each is a well-formed buffer in Payload with its terminating FLAG. -/

namespace Sys2Proof.Proofs

open Sys2Proof.Machine
open Sys2Proof.SpecText (Ready served fresh)

/-- A byte emits a frame only as the FLAG that ends a payload. -/
theorem rxByte_frame {D : Decoder} {b : Byte} {f : Bytes} (hf : f ∈ (rxByte D b).2) :
    D.esc = false ∧ D.st = .payload ∧ f = D.buf ++ [FLAG] := by
  rcases rxByte_cases D b with ⟨-, h⟩ | ⟨-, -, h⟩ | ⟨-, hesc, hrow⟩
  · simp [h] at hf
  · simp [h] at hf
  · rcases hrow with ⟨-, -, h⟩ | ⟨-, -, h⟩ | ⟨-, -, -, h⟩ | ⟨-, -, -, h⟩ | ⟨-, -, h⟩ | ⟨-, -, h⟩ | ⟨-, -, h⟩ |
      ⟨hst, rfl, h⟩ | ⟨-, -, h⟩ <;> simp [h] at hf
    exact ⟨hesc, hst, hf⟩

/-- The buffer that an emitted frame was, before its terminating FLAG. -/
def IsPayload (cfg : Config) (m : Bytes) : Prop := m.length < cfg.bufCap ∧ Decoder.wf cfg ⟨.payload, m, false⟩ = true

/-- Every frame of a FEED is a payload with its terminating FLAG. -/
theorem feedLoop_frame {cfg : Config} {D : Decoder} {chunk f : Bytes} (hcap : 1 ≤ cfg.bufCap) (hD : D.wf cfg = true)
    (hf : f ∈ (feedLoop cfg D chunk).frames) : ∃ m, IsPayload cfg m ∧ f = m ++ [FLAG] := by
  induction chunk generalizing D with
  | nil => cases hf
  | cons b rest ih =>
    have hhere : f ∈ (rxStep cfg D b).frames → ∃ m, IsPayload cfg m ∧ f = m ++ [FLAG] := by
      intro hf
      rcases rxStep_cases cfg D b with ⟨hroom, -, hframes⟩ | ⟨-, -, hframes⟩ | ⟨-, -, hframes⟩ <;> rw [hframes] at hf
      · obtain ⟨hesc, hst, rfl⟩ := rxByte_frame hf
        exact ⟨D.buf, ⟨hroom, by rw [← hesc, ← hst]; exact hD⟩, rfl⟩
      · cases hf
      · cases hf
    cases hstop : (rxStep cfg D b).stop with
    | true =>
      rw [feedLoop_stop hstop] at hf
      exact hhere hf
    | false =>
      rw [feedLoop_go hstop] at hf
      exact (List.mem_append.1 hf).elim hhere (ih (rxStep_wf hcap hD b))

/-- A payload holds two bytes or more, the last of them not ESCAPE, the first of them reserved. -/
theorem isPayload_shape {cfg : Config} {m : Bytes} (h : IsPayload cfg m) :
    (∃ (g : Bytes) (x : Byte), m = g ++ [x] ∧ x ≠ ESCAPE) ∧ 2 ≤ m.length ∧
      (m.head? = some FLAG ∨ m.head? = some ESCAPE) := by
  obtain ⟨-, hesc, hmin, hhead⟩ := (decoder_wf_iff cfg _).1 h.2
  have hlen : 2 ≤ m.length := hmin
  have hne : m ≠ [] := List.ne_nil_of_length_pos (Nat.lt_of_lt_of_le Nat.two_pos hlen)
  refine ⟨⟨m.dropLast, m.getLast hne, (List.dropLast_append_getLast hne).symm, fun hx => ?_⟩, hlen, ?_⟩
  · have hlast : m.getLast? = some ESCAPE := by rw [List.getLast?_eq_getLast_of_ne_nil hne, hx]
    cases hesc.2 hlast
  · obtain ⟨b, rest, rfl⟩ := List.exists_cons_of_ne_nil hne
    rcases hhead b rfl with rfl | rfl
    · exact .inl rfl
    · exact .inr rfl

theorem dsMalformed_dsSelect {b : Byte} {next : Option Byte} (h : dsMalformed (dsSelect b next) = true) :
    b = ESCAPE ∧ next = none := by
  rcases dsSelect_cases b next with ⟨hrow, -⟩ | ⟨hrow, -⟩ | ⟨hrow, -⟩ | ⟨-, hb, hnext⟩ | ⟨hrow, -⟩
  case inr.inr.inr.inl => exact ⟨hb, hnext⟩
  all_goals
    rw [hrow] at h
    cases h

/-- Only a sequence that ends in ESCAPE is malformed (R115). -/
theorem getLast?_of_destuff_malformed {data : Bytes} (h : (destuff data).2 = true) : data.getLast? = some ESCAPE := by
  induction hn : data.length using Nat.strong_induction_on generalizing data with
  | _ n ih =>
    cases data with
    | nil => cases h
    | cons b rest =>
      rw [destuff_cons, Bool.or_eq_true] at h
      rcases h with hrow | hrest
      · obtain ⟨rfl, hend⟩ := dsMalformed_dsSelect hrow
        rw [List.head?_eq_none_iff.1 hend]
        rfl
      · have hpos := dsAdvance_pos (dsSelect b rest.head?)
        have hlast := ih _ (by rw [← hn, List.length_drop, List.length_cons]; omega) hrest rfl
        rw [List.getLast?_drop] at hlast
        split at hlast
        · cases hlast
        · exact hlast

/-- A frame whose last byte before the terminating FLAG is not ESCAPE is not malformed to the validator. -/
theorem destuff_stripFlags_not_malformed {g : Bytes} {x : Byte} (hg : g ≠ []) (hx : x ≠ ESCAPE) :
    (destuff (stripFlags (g ++ [x, FLAG]))).2 = false := by
  obtain ⟨m, hstrip⟩ : ∃ m, stripFlags (g ++ [x, FLAG]) = m ++ [x] := by
    obtain ⟨b, rest, rfl⟩ := List.exists_cons_of_ne_nil hg
    by_cases hb : b = FLAG
    · subst hb
      exact ⟨rest, by simpa using stripFlags_delimited (rest ++ [x])⟩
    · exact ⟨b :: rest, by simpa using stripFlags_append_flag (f := b :: rest ++ [x]) (by simpa using hb)⟩
  rw [hstrip]
  by_contra hmalformed
  have hlast := getLast?_of_destuff_malformed (Bool.not_eq_false _ ▸ hmalformed)
  rw [List.getLast?_concat] at hlast
  exact hx (Option.some.inj hlast)

/-- Settles O37: each emitted frame was a payload in a well-formed instance, and its terminating FLAG. -/
theorem decoderFrameShape : Obligations.DecoderFrameShape := by
  intro s t d D chunk fs overflow f hwf h hfeed hout hf
  rw [exec_feed_ready h] at hfeed
  obtain rfl := Host.Outcome.next.inj hfeed
  obtain ⟨rfl, -⟩ := Response.frames.inj (List.singleton_inj.1 (List.append_cancel_left hout))
  obtain ⟨m, hm, rfl⟩ := feedLoop_frame (bufCap_pos_of_wf hwf) (decoder_wf_of_ready hwf h) hf
  obtain ⟨⟨g, x, rfl, hx⟩, hlen, hhead⟩ := isPayload_shape hm
  have hroom : (g ++ [x]).length < s.cfg.bufCap := hm.1
  simp only [List.length_append, List.length_singleton] at hlen hroom
  have hg : g ≠ [] := List.ne_nil_of_length_pos (by omega)
  obtain ⟨b, rest, rfl⟩ := List.exists_cons_of_ne_nil hg
  rw [List.append_assoc]
  refine ⟨?_, ?_, ⟨b :: rest, x, rfl, hx⟩, hhead, destuff_stripFlags_not_malformed hg hx⟩ <;>
    simp only [List.length_append, List.length_cons, List.length_nil] at hlen hroom ⊢ <;> omega

end Sys2Proof.Proofs
end

section
/-! Proof for spec/44_validator.md R185 item 3: over fixed bytes before and behind it, the CRC is injective in one byte. -/

namespace Sys2Proof.Proofs

open Sys2Proof.Machine

/-- The high byte of a step's result gives the table index that was taken. -/
theorem crcStep_index_of_highByte {v w : U16} {b c : Byte} (h : highByte (Machine.crcStep v b) = highByte (Machine.crcStep w c)) :
    lowByte v ^^^ b = lowByte w ^^^ c := by
  rw [crcStep_eq_xor_highByte, crcStep_eq_xor_highByte, highByte_xor_setWidth, highByte_xor_setWidth] at h
  exact highByte_crcWord_injective h

/-- A step's result gives the table index that was taken and the high byte of the seed. -/
theorem crcStep_inj {v w : U16} {b c : Byte} (h : Machine.crcStep v b = Machine.crcStep w c) :
    lowByte v ^^^ b = lowByte w ^^^ c ∧ highByte v = highByte w := by
  have hindex := crcStep_index_of_highByte (congrArg highByte h)
  rw [crcStep_eq_xor_highByte, crcStep_eq_xor_highByte, hindex] at h
  have hnarrow := congrArg (BitVec.setWidth 8) ((BitVec.xor_right_inj _).1 h)
  exact ⟨hindex, by simpa using hnarrow⟩

theorem crcStep_byte_injective (seed : U16) : Function.Injective fun b => Machine.crcStep seed b :=
  fun _ _ h => (BitVec.xor_right_inj _).1 (crcStep_inj h).1

/-- One byte of a sequence that checks, replaced by another value, spoils the check. -/
theorem frameCheck_replace_eq_false {a b : Bytes} {x y : Byte} (hcheck : frameCheck (a ++ x :: b) = true) (hxy : x ≠ y) :
    frameCheck (a ++ y :: b) = false := by
  rw [Bool.eq_false_iff, ne_eq, frameCheck_iff, ← (frameCheck_iff _).1 hcheck, fcs_append, fcs_append, fcs_cons, fcs_cons]
  exact fun h => hxy (crcStep_byte_injective _ (fcs_seed_injective b h)).symm

/-- Settles O41: the validator de-stuffs the changed raw bytes as they are, and they do not check. -/
theorem validateRejectsByteChange : Obligations.ValidateRejectsByteChange := by
  intro s cfg id t p a b x y _ hraw hxy
  rw [← rawFrame_eq_raw] at hraw
  have hframe : [0x7E#8] ++ (a ++ y :: b).flatMap SpecText.stuffOne ++ [0x7E#8] =
      FLAG :: (Machine.stuff (a ++ y :: b) ++ [FLAG]) := by
    rw [stuff_eq_flatMap_stuffOne]
    rfl
  rw [hframe]
  apply exec_validate_badFcs
  rw [stripFlags_delimited, destuff_stuff]
  exact .inr (frameCheck_replace_eq_false (by rw [← hraw]; exact frameCheck_rawFrame cfg id t p) hxy)

end Sys2Proof.Proofs
end

section
/-! Proof for spec/41_stuffing.md R116: the de-stuffer's loop over one memory. The bytes below the write index are the bytes
emitted, the bytes from the read index on are the input's, and the write index never passes the read index. -/

namespace Sys2Proof.Proofs

open Sys2Proof.Machine
open Sys2Proof.SpecText (destuffLoop inPlaceLoop)

/-- The one memory of R116 between two iterations: `out` below the write index `out.length`, the input from index `i` on. -/
structure HoldsInPlace (data : Bytes) (i : Nat) (out mem : Bytes) : Prop where
  length : mem.length = data.length
  behind : out.length ≤ i
  within : i ≤ data.length
  written : mem.take out.length = out
  unread : ∀ j, i ≤ j → mem[j]? = data[j]?

/-- One iteration writes one byte at the write index and reads on. -/
theorem HoldsInPlace.write {data out mem : Bytes} {i k : Nat} (h : HoldsInPlace data i out mem) (hk : i < k)
    (hend : k ≤ data.length) (v : Byte) : HoldsInPlace data k (out ++ [v]) (mem.set out.length v) where
  length := by rw [List.length_set, h.length]
  behind := by
    have hbehind := h.behind
    rw [List.length_append, List.length_singleton]
    omega
  within := hend
  written := by
    have hbehind := h.behind
    have hlt : out.length < mem.length := by rw [h.length]; omega
    rw [List.length_append, List.length_singleton, List.take_add_one, List.take_set_of_le le_rfl, h.written,
      List.getElem?_set_self hlt]
    rfl
  unread := by
    intro j hj
    have hbehind := h.behind
    rw [List.getElem?_set_ne (by omega), h.unread j (by omega)]

/-- The loop over one memory emits what the loop of R113 does. -/
theorem inPlaceLoop_eq_destuffLoop {data out mem : Bytes} {i : Nat} (fuel : Nat) (malformed : Bool)
    (h : HoldsInPlace data i out mem) :
    ((inPlaceLoop data.length fuel i out.length mem malformed).1.take
        (inPlaceLoop data.length fuel i out.length mem malformed).2.1,
      (inPlaceLoop data.length fuel i out.length mem malformed).2.2) = destuffLoop data fuel i out malformed ∧
    (inPlaceLoop data.length fuel i out.length mem malformed).2.1 ≤ data.length := by
  induction fuel generalizing i out mem malformed with
  | zero => exact ⟨by rw [inPlaceLoop, destuffLoop, h.written], h.behind.trans h.within⟩
  | succ fuel ih =>
    have hnext (k : Nat) (v : Byte) (m : Bool) (hk : i < k) (hend : k ≤ data.length) := ih m (h.write hk hend v)
    simp only [List.length_append, List.length_singleton] at hnext
    rw [inPlaceLoop, destuffLoop, h.unread i le_rfl, h.unread (i + 1) (Nat.le_succ i), List.getD_eq_getElem?_getD,
      h.unread i le_rfl, ← List.getD_eq_getElem?_getD]
    split
    case isTrue hi =>
      split
      case isTrue hpair => exact hnext _ _ _ (by omega) hpair.2.1
      case isFalse =>
        split
        case isTrue hpair => exact hnext _ _ _ (by omega) hpair.2.1
        case isFalse =>
          split
          case isTrue => exact hnext _ _ _ (by omega) hi
          case isFalse => exact hnext _ _ _ (by omega) hi
    case isFalse => exact ⟨by rw [h.written], h.behind.trans h.within⟩

/-- Settles O12: the loop over one memory is R113's, which is the machine's de-stuffer. -/
theorem destuffInPlace : Obligations.DestuffInPlace := by
  intro data r
  have h := inPlaceLoop_eq_destuffLoop (data := data) (out := []) data.length false
    ⟨rfl, Nat.zero_le 0, Nat.zero_le _, rfl, fun _ _ => rfl⟩
  rwa [destuffLoop_eq_destuff] at h

end Sys2Proof.Proofs
end

section
/-! Proofs for spec/40_crc.md R101, R105, R107 and R108: the table, the step as eight shifts, the residue law and the frame
check on short inputs. -/

namespace Sys2Proof.Proofs

open Sys2Proof.Machine
open Sys2Proof.SpecText (shiftStep shift8)

/-- Settles O1: the table has 256 words, each what R101's loop gives for its index. -/
theorem crcTableIsGenerated : Obligations.CrcTableIsGenerated := by
  constructor <;> decide +kernel

/-! ### Eight shifts -/

/-- Two exclusive ors with one value cancel out. -/
theorem xor_xor_xor_cancel (v w g : U16) : (v ^^^ g) ^^^ (w ^^^ g) = v ^^^ w := by
  rw [BitVec.xor_comm w, BitVec.xor_assoc, ← BitVec.xor_assoc g, BitVec.xor_self, BitVec.zero_xor]

/-- The shift is linear: the generator enters once for each of the two bits shifted out. -/
theorem shiftStep_xor (v w : U16) : shiftStep (v ^^^ w) = shiftStep v ^^^ shiftStep w := by
  simp only [shiftStep, BitVec.getLsbD_xor, BitVec.ushiftRight_xor_distrib]
  cases v.getLsbD 0 <;> cases w.getLsbD 0
  · rfl
  · exact BitVec.xor_assoc ..
  · simp only [Bool.xor_false, if_true, if_false, Bool.false_eq_true]
    ac_rfl
  · exact (xor_xor_xor_cancel ..).symm

theorem shift8_xor (v w : U16) : shift8 (v ^^^ w) = shift8 v ^^^ shift8 w := by
  simp only [shift8, Function.iterate_succ_apply, Function.iterate_zero_apply, shiftStep_xor]

/-- Eight shifts of a high byte bring it down: no bit of it reaches the generator. -/
theorem shift8_highByte : ∀ h : Byte, shift8 (h ++ 0x00#8) = h.setWidth 16 := by decide +kernel

theorem lowByte_append (h l : Byte) : lowByte (h ++ l) = l := (List.cons.inj (u16Field_readU16 l h)).1

theorem highByte_append (h l : Byte) : highByte (h ++ l) = h := (List.cons.inj (List.cons.inj (u16Field_readU16 l h)).2).1

theorem eq_append_xor_lowByte (v : U16) : v = (highByte v ++ 0x00#8) ^^^ (lowByte v).setWidth 16 := by
  apply eq_of_lowByte_eq_of_highByte_eq
  · rw [lowByte_xor_setWidth, lowByte_append, BitVec.zero_xor]
  · rw [highByte_xor_setWidth, highByte_append]

/-- Settles O4: the shift is linear, so the high byte comes down as it is and the low byte becomes its table word. -/
theorem crcStepIsBitSerial : Obligations.CrcStepIsBitSerial := by
  intro seed b
  rw [eq_append_xor_lowByte (seed ^^^ b.setWidth 16), shift8_xor, shift8_highByte, ← crcTableIsGenerated.2, lowByte_xor_setWidth,
    highByte_xor_setWidth, crcStep_eq_xor_highByte, BitVec.xor_comm]

/-- Settles O5: the residue law, of which the frame check is the case of the fresh seed, and the chaining law. -/
theorem fcsResidueLaw : Obligations.FcsResidueLaw := ⟨fcs_append_fcsBytes, frameCheck_withFcs, fcs_append⟩

/-! ### Short inputs -/

/-- Of two bytes, the first is fixed by the high byte that its step leaves, and the second by the table index of its own step. -/
theorem frameCheck_pair_iff (a b : Byte) : frameCheck [a, b] = true ↔ a = 0x00#8 ∧ b = 0x00#8 := by
  have hzero : frameCheck [0x00#8, 0x00#8] = true := by decide
  refine ⟨fun h => ?_, by rintro ⟨rfl, rfl⟩; exact hzero⟩
  rw [frameCheck_iff, fcs_cons, fcs_cons, fcs_nil] at h hzero
  obtain ⟨hsecond, hhigh⟩ := crcStep_inj (h.trans hzero.symm)
  obtain rfl : a = 0x00#8 := (BitVec.xor_right_inj _).1 (crcStep_index_of_highByte hhigh)
  exact ⟨rfl, (BitVec.xor_right_inj _).1 hsecond⟩

/-- Settles O6: one byte by inspection, two bytes by `frameCheck_pair_iff`, the flips of the reference message one by one. -/
theorem frameCheckShortInputs : Obligations.FrameCheckShortInputs :=
  ⟨by decide, by decide +kernel, frameCheck_pair_iff, by decide, by decide +kernel⟩

end Sys2Proof.Proofs
end

section
/-! Proofs for spec/41_stuffing.md R114, R115 and R118 and spec/30_encoding.md R69: the escape pairs, the other bytes, and the rows
of the stuffer and the de-stuffer. -/

namespace Sys2Proof.Proofs

open Sys2Proof.Machine

/-! ### The rows alone -/

theorem exec_txFlag (s : State) : exec .txFlag s = .next (s.respond (.unit [ESCAPE, ESC_FLAG] 1 false)) := rfl

theorem exec_txEsc (s : State) : exec .txEsc s = .next (s.respond (.unit [ESCAPE, ESC_ESCAPE] 1 false)) := rfl

theorem exec_txOther (b : Byte) (s : State) : exec (.txOther b) s = .next (s.respond (.unit [b] 1 false)) := rfl

theorem exec_dsFlag (s : State) : exec .dsFlag s = .next (s.respond (.unit [FLAG] 2 false)) := rfl

theorem exec_dsEsc (s : State) : exec .dsEsc s = .next (s.respond (.unit [ESCAPE] 2 false)) := rfl

theorem exec_dsLone (x : Byte) (s : State) : exec (.dsLone x) s = .next (s.respond (.unit [ESCAPE] 1 false)) := rfl

theorem exec_dsTail (s : State) : exec .dsTail s = .next (s.respond (.unit [ESCAPE] 1 true)) := rfl

theorem exec_dsOther (b : Byte) (s : State) : exec (.dsOther b) s = .next (s.respond (.unit [b] 1 false)) := rfl

/-! ### Row selection -/

theorem txDecode_other {b : Byte} (hf : b ≠ FLAG) (he : b ≠ ESCAPE) : txDecode b = .txOther b := by
  rw [txDecode, if_neg hf, if_neg he]

theorem dsDecode_lone {x : Byte} (hf : x ≠ ESC_FLAG) (he : x ≠ ESC_ESCAPE) : dsDecode ESCAPE (some x) = .dsLone x := by
  rw [dsDecode, dsSelect_lone hf he]
  rfl

theorem dsDecode_other {b : Byte} (hb : b ≠ ESCAPE) (next : Option Byte) : dsDecode b next = .dsOther b := by
  rw [dsDecode, dsSelect_other hb]

/-- Settles O10: the pairs are the de-stuffer's rows of R114. -/
theorem destuffEscapePairs : Obligations.DestuffEscapePairs :=
  ⟨destuff_pair_flag, destuff_pair_escape, exec_dsFlag, exec_dsEsc, by decide, by decide, by decide⟩

/-- Settles O11: an ESCAPE without its pair and every other byte go through as they are. -/
theorem destuffOtherBytes : Obligations.DestuffOtherBytes :=
  ⟨fun _ rest hf he => destuff_lone hf he rest, destuff_tail, fun _ rest hb => destuff_other hb rest,
    fun s x => exec_dsLone x s, exec_dsTail, fun s b => exec_dsOther b s, by decide, by decide, by decide, by decide, by decide,
    by decide⟩

/-- Settles O14: the spec's examples, evaluated. -/
theorem destuffLosesInformation : Obligations.DestuffLosesInformation := ⟨by decide, by decide, by decide, destuff_tail⟩

/-- Settles O15: each row is selected by its input class, and answers what R69's table says. -/
theorem stufferAndDestufferRows : Obligations.StufferAndDestufferRows :=
  ⟨rfl, rfl, fun _ hf he => txDecode_other hf he, rfl, rfl, fun _ hf he => dsDecode_lone hf he, rfl,
    fun _ next hb => dsDecode_other hb next, exec_txFlag, exec_txEsc, fun s v => exec_txOther v s, exec_dsFlag, exec_dsEsc,
    fun s x => exec_dsLone x s, exec_dsTail, fun s v => exec_dsOther v s⟩

end Sys2Proof.Proofs
end

section
/-! Proof for spec/30_encoding.md R63: the address byte. -/

namespace Sys2Proof.Proofs

open Sys2Proof.Machine

/-- The fields of the address byte, for each of the 63 ids it holds. -/
theorem addressByte_fields : ∀ id < 63,
    addressByte id = (BitVec.ofNat 6 id ++ 0b01#2 : BitVec 8) ∧ (addressByte id).toNat ≤ 0xF9 := by decide +kernel

/-- The residue and the id of an address byte, the broadcast id's among them. -/
theorem addressByte_residue : ∀ id < 64,
    ((addressByte id).toNat % 4 = 1 ∨ addressByte id = 0xFF#8) ∧ addressByte id ≠ FLAG ∧ (addressByte id).toNat / 4 = id := by
  decide +kernel

/-- Settles O17: bits 7:2 give the id back, so distinct ids have distinct bytes. -/
theorem addressByteForm : Obligations.AddressByteForm := by
  refine ⟨fun id hid => addressByte_fields id (by omega), fun id hid => ?residue, fun i j hi hj hij => ?distinct, by decide⟩
  case residue =>
    obtain ⟨hmod, hflag, -⟩ := addressByte_residue id (by omega)
    exact ⟨hmod, hflag⟩
  case distinct =>
    obtain ⟨-, -, hi⟩ := addressByte_residue i (by omega)
    obtain ⟨-, -, hj⟩ := addressByte_residue j (by omega)
    rw [← hi, hij, hj]

end Sys2Proof.Proofs
end

section
/-! Proofs for spec/30_encoding.md R68 and spec/43_stream_decoder.md section 1: which decoder row a byte selects, what a row leaves
alone, and that a row is a FEED of its byte. -/

namespace Sys2Proof.Proofs

open Sys2Proof.Machine
open Sys2Proof.SpecText (Ready RowCondition)

/-- The condition of the selected row holds. -/
theorem rowCondition_rxRowOf (cfg : Config) (D : Decoder) (b : Byte) : RowCondition cfg D b (rxRowOf cfg D b) := by
  rcases Nat.lt_or_ge D.buf.length cfg.bufCap with hroom | hfull
  · rw [rxRowOf_notFull hroom]
    generalize hst : D.st = st
    fun_cases rxSelectByte D.buf.isEmpty D.esc st b with
    | case1 _ he => exact ⟨hroom, he⟩
    | case2 _ he hesc => exact ⟨hroom, hesc, he⟩
    | case3 he hesc hf | case8 he hesc hf | case10 he hesc hf => exact ⟨hroom, Bool.eq_false_iff.2 hesc, hst, hf⟩
    | case4 he hesc hf | case7 he hesc hf | case9 he hesc hf | case11 he hesc hf =>
      exact ⟨hroom, Bool.eq_false_iff.2 hesc, hst, hf, he⟩
    | case5 he hesc hf hempty =>
      exact ⟨hroom, Bool.eq_false_iff.2 hesc, hst, hf, List.length_eq_zero_iff.2 (List.isEmpty_iff.1 hempty)⟩
    | case6 he hesc hf hempty =>
      exact ⟨hroom, Bool.eq_false_iff.2 hesc, hst, hf, List.length_pos_iff.2 (mt List.isEmpty_iff.2 hempty)⟩
  · rw [rxRowOf_full hfull]
    exact hfull

theorem rxRowOf_eq_iff (cfg : Config) (D : Decoder) (b : Byte) (row : RxRow) :
    rxRowOf cfg D b = row ↔ RowCondition cfg D b row :=
  ⟨fun h => h ▸ rowCondition_rxRowOf cfg D b, rxRowOf_of_condition⟩

/-- Settles O29: a condition holds exactly where its row is selected, so just one does. -/
theorem rowSelection : Obligations.RowSelection := by
  refine ⟨rxRowOf_eq_iff, fun cfg D b => ⟨_, rowCondition_rxRowOf cfg D b, fun row h => (rxRowOf_of_condition h).symm⟩, ?_⟩
  intro s d D b row h _ hencode hnot
  rw [exec_rxInstr hencode]
  exact runRxRow_notSelected h.1 (isOpen_of_ready h) fun hrow => hnot ((rxRowOf_eq_iff ..).1 hrow)

/-- A FEED of one byte is the step of the byte, whether it stops the chunk or not. -/
theorem feedLoop_singleton (cfg : Config) (D : Decoder) (b : Byte) :
    feedLoop cfg D [b] =
      { dec := (rxStep cfg D b).dec, frames := (rxStep cfg D b).frames, overflow := (rxStep cfg D b).overflow } := by
  cases hstop : (rxStep cfg D b).stop with
  | true => exact feedLoop_stop hstop []
  | false => simp [feedLoop_go hstop]

/-- Settles O30: both take the step of the byte. -/
theorem rowIsOneByteFeed : Obligations.RowIsOneByteFeed := by
  intro s d D b h
  rw [exec_rxInstr_of_condition h (rowCondition_rxRowOf s.cfg D b), exec_feed_ready h, feedLoop_singleton]

/-! ### What a row leaves alone -/

/-- The buffer after a stored byte, read index by index. -/
theorem memRead_store (D : Decoder) (b : Byte) : (store D b).cursor = D.cursor + 1 ∧ memRead (store D b).buf D.cursor = some b ∧
    ∀ i, i ≠ D.cursor → memRead (store D b).buf i = memRead D.buf i :=
  ⟨store_cursor D b, (memRead_memAppend D.buf b _).trans (if_pos rfl),
    fun i hi => (memRead_memAppend D.buf b i).trans (if_neg hi)⟩

/-- Settles O31: the selected row's action stores its byte, keeps the buffer or empties it. -/
theorem rowFrame : Obligations.RowFrame := by
  intro cfg D b row hrow hovf D'
  have hstep := rxStep_of_condition ((rxRowOf_eq_iff ..).1 hrow) hovf
  have hD' : D' = (rxAction row D b).1 := congrArg RxOutcome.dec hstep
  rw [hD', hstep]
  have hstore := memRead_store D b
  cases row with
  | ovf => exact absurd rfl hovf
  | esc | escd | idleF | cfmgF0 | cfmdF | cfmdO | payO =>
    refine ⟨fun _ => hstore, ?_, ?_, ?_, ?_, ?_⟩ <;> simp [rxAction]
  | idleO | cfmgF1 | cfmgO | payF => refine ⟨?_, ?_, ?_, ?_, ?_, ?_⟩ <;> simp [rxAction, memRead]

end Sys2Proof.Proofs
end

section
/-! Proofs for spec/30_encoding.md Parts 1 and 2: records and byte rows decode and encode back, and a step runs what the oldest
request decodes to. -/

namespace Sys2Proof.Proofs

open Sys2Proof.Machine
open Sys2Proof.SpecText (counted instanceOf)

/-! ### Command records -/

theorem counted_eq_bytesField (data : Bytes) : counted data = bytesField data := (bytesField_eq data).symm

/-- Settles O55: row by row of R73's table, the decoder reads back the fields that the encoder wrote. -/
theorem commandRoundTrip : Obligations.CommandRoundTrip := by
  intro i hcommand hwf
  cases i with
  | crcStep seed b => exact ⟨_, rfl, u16Field_eq_le16 seed ▸ decodeRecord_crcStep seed b⟩
  | fcs seed data =>
    exact ⟨_, rfl, u16Field_eq_le16 seed ▸ counted_eq_bytesField _ ▸ decodeRecord_fcs seed (of_decide_eq_true hwf)⟩
  | stuff data => exact ⟨_, rfl, counted_eq_bytesField _ ▸ decodeRecord_stuff (of_decide_eq_true hwf)⟩
  | destuff data => exact ⟨_, rfl, counted_eq_bytesField _ ▸ decodeRecord_destuff (of_decide_eq_true hwf)⟩
  | encode id t p =>
    obtain ⟨hid, hn⟩ := Bool.and_eq_true_iff.1 hwf
    exact ⟨_, rfl, counted_eq_bytesField _ ▸ decodeRecord_encode (of_decide_eq_true hid) (of_decide_eq_true hn) t⟩
  | decReset d => exact ⟨_, rfl, decodeRecord_decReset (of_decide_eq_true hwf)⟩
  | feed d chunk =>
    obtain ⟨hd, hn⟩ := Bool.and_eq_true_iff.1 hwf
    exact ⟨_, rfl, counted_eq_bytesField _ ▸ decodeRecord_feed (of_decide_eq_true hd) (of_decide_eq_true hn)⟩
  | validate frame => exact ⟨_, rfl, counted_eq_bytesField _ ▸ decodeRecord_validate (of_decide_eq_true hwf)⟩
  | parseHeader body => exact ⟨_, rfl, counted_eq_bytesField _ ▸ decodeRecord_parseHeader (of_decide_eq_true hwf)⟩
  | rxOvf | rxEsc | rxEscd | rxIdleF | rxIdleO | rxCfmgF0 | rxCfmgF1 | rxCfmgO | rxCfmdF | rxCfmdO | rxPayF | rxPayO | txFlag
  | txEsc | txOther | dsFlag | dsEsc | dsLone | dsTail | dsOther => cases hcommand

/-- A record decodes only if its front is a command with nothing left over. -/
theorem decodeFront_of_decodeRecord {r : Bytes} {i : Instr} (h : decodeRecord r = .ok i) : decodeFront r = .ok (i, []) := by
  unfold decodeRecord at h
  split at h
  · next j hfront => rw [hfront, Except.ok.inj h]
  · cases h
  · cases h

/-- Settles O56: the command decoder answers the command whose record stands in front, and nothing is left over. -/
theorem decodedRecordIsItsEncoding : Obligations.DecodedRecordIsItsEncoding := by
  intro r i h
  have hfront := decodeFront_answer r
  rw [decodeFront_of_decodeRecord h] at hfront
  cases hfront with
  | command _ hr hi =>
    rw [List.append_nil] at hr
    exact hr ▸ hi

/-- Settles O58: the seven records, decoded. -/
theorem sampleRecordsDecode : Obligations.SampleRecordsDecode := by
  refine ⟨?_, ?_, ?_, ?_, ?_, ?_, ?_⟩ <;> decide

/-! ### Byte rows -/

/-- The row that is selected is well formed, and shows the byte that selects it. -/
theorem rxInstr_rxSelect (c : RxContext) (d : Nat) (b : Byte) :
    (rxInstr (rxSelect c b) d b).isCommand = false ∧ (rxInstr (rxSelect c b) d b).wellFormed = true ∧
      encode (rxInstr (rxSelect c b) d b) = .rxByte d b := by
  unfold rxSelect
  split
  · exact ⟨rfl, rfl, rfl⟩
  · fun_cases rxSelectByte c.empty c.esc c.st b with
    | case1 _ he => exact ⟨rfl, rfl, by rw [he]; rfl⟩
    | case2 _ he => exact ⟨rfl, bne_iff_ne.2 he, rfl⟩
    | case3 _ _ hf | case5 _ _ hf | case6 _ _ hf | case8 _ _ hf | case10 _ _ hf => exact ⟨rfl, rfl, by rw [hf]; rfl⟩
    | case4 he _ hf | case7 he _ hf | case9 he _ hf | case11 he _ hf => exact ⟨rfl, (isOrdinary_iff b).2 ⟨hf, he⟩, rfl⟩

theorem txDecode_wellFormed (b : Byte) :
    (txDecode b).isCommand = false ∧ (txDecode b).wellFormed = true ∧ encode (txDecode b) = .txByte b := by
  unfold txDecode
  split
  case isTrue hf => exact ⟨rfl, rfl, by rw [hf]; rfl⟩
  case isFalse hf =>
    split
    case isTrue he => exact ⟨rfl, rfl, by rw [he]; rfl⟩
    case isFalse he => exact ⟨rfl, (isOrdinary_iff b).2 ⟨hf, he⟩, rfl⟩

/-- A context in which the row is selected, where the byte is one of its class. -/
def rowContext : RxRow → RxContext
  | .ovf => ⟨true, false, false, .idle⟩
  | .esc => ⟨false, true, false, .idle⟩
  | .escd => ⟨false, false, true, .idle⟩
  | .idleF | .idleO => ⟨false, true, false, .idle⟩
  | .cfmgF0 => ⟨false, true, false, .confirming⟩
  | .cfmgF1 | .cfmgO => ⟨false, false, false, .confirming⟩
  | .cfmdF | .cfmdO => ⟨false, false, false, .confirmed⟩
  | .payF | .payO => ⟨false, false, false, .payload⟩

/-- A well-formed decoder row is selected in its context by the byte that its encoded form shows. -/
theorem rxSelect_rowContext {row : RxRow} {d : Nat} {b : Byte} (hwf : (rxInstr row d b).wellFormed = true)
    (hencode : encode (rxInstr row d b) = .rxByte d b) : rxSelect (rowContext row) b = row := by
  cases row with
  | ovf => rfl
  | esc | idleF | cfmgF0 | cfmgF1 | cfmdF | payF =>
    cases hencode
    rfl
  | escd =>
    have he : b ≠ ESCAPE := bne_iff_ne.1 hwf
    simp [rxSelect, rowContext, rxSelectByte, he]
  | idleO | cfmgO | cfmdO | payO =>
    obtain ⟨hf, he⟩ := (isOrdinary_iff b).1 hwf
    simp [rxSelect, rowContext, rxSelectByte, hf, he]

/-- A decoder row is decoded from its encoded form in its context. -/
theorem decodeFetch_rxInstr {row : RxRow} {d : Nat} {b : Byte} (hwf : (rxInstr row d b).wellFormed = true)
    (hencode : encode (rxInstr row d b) = .rxByte d b) :
    decodeFetch (rowContext row) (encode (rxInstr row d b)) = .ok (rxInstr row d b) := by
  rw [hencode, decodeFetch, rxSelect_rowContext hwf hencode]

/-- A stuffer or de-stuffer row is decoded from its encoded form in every context. -/
theorem decodeFetch_encode_pure {i : Instr} (hrow : i.isCommand = false) (hwf : i.wellFormed = true) (hi : instanceOf i = none)
    (c : RxContext) : decodeFetch c (encode i) = .ok i := by
  cases i with
  | txFlag | txEsc | dsFlag | dsEsc | dsTail => rfl
  | txOther b =>
    obtain ⟨hf, he⟩ := (isOrdinary_iff b).1 hwf
    exact congrArg Except.ok (txDecode_other hf he)
  | dsLone x =>
    obtain ⟨hf, he⟩ := Bool.and_eq_true_iff.1 hwf
    exact congrArg Except.ok (dsDecode_lone (bne_iff_ne.1 hf) (bne_iff_ne.1 he))
  | dsOther b => exact congrArg Except.ok (dsDecode_other (bne_iff_ne.1 hwf) none)
  | rxOvf | rxEsc | rxEscd | rxIdleF | rxIdleO | rxCfmgF0 | rxCfmgF1 | rxCfmgO | rxCfmdF | rxCfmdO | rxPayF | rxPayO => cases hi
  | crcStep | fcs | stuff | destuff | encode | decReset | feed | validate | parseHeader => cases hrow

/-- Every decoder row is the row of some byte that its encoded form shows. -/
theorem eq_rxInstr_of_instanceOf {i : Instr} {d : Nat} (hrow : i.isCommand = false) (hi : instanceOf i = some d) :
    ∃ (row : RxRow) (b : Byte), i = rxInstr row d b ∧ encode (rxInstr row d b) = .rxByte d b := by
  cases i with
  | rxOvf d b => cases hi; exact ⟨.ovf, b, rfl, rfl⟩
  | rxEsc d => cases hi; exact ⟨.esc, ESCAPE, rfl, rfl⟩
  | rxEscd d b => cases hi; exact ⟨.escd, b, rfl, rfl⟩
  | rxIdleF d => cases hi; exact ⟨.idleF, FLAG, rfl, rfl⟩
  | rxIdleO d b => cases hi; exact ⟨.idleO, b, rfl, rfl⟩
  | rxCfmgF0 d => cases hi; exact ⟨.cfmgF0, FLAG, rfl, rfl⟩
  | rxCfmgF1 d => cases hi; exact ⟨.cfmgF1, FLAG, rfl, rfl⟩
  | rxCfmgO d b => cases hi; exact ⟨.cfmgO, b, rfl, rfl⟩
  | rxCfmdF d => cases hi; exact ⟨.cfmdF, FLAG, rfl, rfl⟩
  | rxCfmdO d b => cases hi; exact ⟨.cfmdO, b, rfl, rfl⟩
  | rxPayF d => cases hi; exact ⟨.payF, FLAG, rfl, rfl⟩
  | rxPayO d b => cases hi; exact ⟨.payO, b, rfl, rfl⟩
  | txFlag | txEsc | txOther | dsFlag | dsEsc | dsLone | dsTail | dsOther => cases hi
  | crcStep | fcs | stuff | destuff | encode | decReset | feed | validate | parseHeader => cases hrow

/-- Settles O57: the selected row shows the byte that selects it, and each row has a context in which that byte selects it. -/
theorem byteRowRoundTrip : Obligations.ByteRowRoundTrip := by
  refine ⟨fun c d b => ⟨_, rfl, rxInstr_rxSelect c d b⟩, fun _ b => ⟨_, rfl, txDecode_wellFormed b⟩, fun i hrow hwf => ?_⟩
  refine ⟨decodeFetch_encode_pure hrow hwf, ?_⟩
  cases hi : instanceOf i with
  | none => exact ⟨resetContext, decodeFetch_encode_pure hrow hwf hi _⟩
  | some d =>
    obtain ⟨row, b, rfl, hencode⟩ := eq_rxInstr_of_instanceOf hrow hi
    exact ⟨rowContext row, decodeFetch_rxInstr hwf hencode⟩

/-! ### Steps -/

/-- A step runs the instruction that the oldest request is in the state's context. -/
theorem step_issue {s : State} {f : Fetch} {rest : List Request} {c : RxContext} {i : Instr}
    (hs : s.inbox = .issue f :: rest) (hc : fetchContext s f = some c) (hi : decodeFetch c f = .ok i) :
    step s = exec i { s with inbox := rest } := by
  simp [step, hs, fetchInstr, hc, hi]

theorem step_idle {s : State} (hs : s.inbox = []) : step s = .next s := by
  simp [step, hs]

theorem fetchContext_rxByte {s : State} {d : Nat} {D : Decoder} (hD : s.decoders[d]? = some D) (b : Byte) :
    fetchContext s (.rxByte d b) = some (rxContext s.cfg D) := by
  simp [fetchContext, hD]

/-- Settles O59: the four encoded forms are decoded in the context of the state, which only a decoder's byte reads. -/
theorem stepRunsDecoded : Obligations.StepRunsDecoded := by
  refine ⟨?record, ?rxByte, ?txByte, ?dsByte, fun s hs => step_idle hs, ?command⟩
  case record =>
    intro s r rest i hs hr
    exact step_issue hs rfl hr
  case rxByte =>
    intro s d b rest D hs hD
    exact step_issue hs (fetchContext_rxByte hD b) rfl
  case txByte =>
    intro s b rest hs
    exact step_issue hs rfl rfl
  case dsByte =>
    intro s b next rest hs
    exact step_issue hs rfl rfl
  case command =>
    intro i hcommand hwf s rest hs
    obtain ⟨r, hencode, hdecode⟩ := commandRoundTrip i hcommand hwf
    rw [hencode] at hs
    exact step_issue hs rfl hdecode

end Sys2Proof.Proofs
end
